-- ==== Sys2Proof/Word.lean ====
section
/-! DEFINITION. The words the machine moves: 32-bit register values and 8-bit bytes (00_scope R6, R8; 20_memory R61),
and the 16-bit halfwords instructions are made of (30_encoding R90, R105). -/

namespace Sys2Proof

/-- A register value or an address: 32 bits (00_scope R6, R8). `uint` of the spec is `BitVec.toNat`, `sint` is
`BitVec.toInt`, `trunc32` is `BitVec.ofNat 32` or `BitVec.ofInt 32`, `v[i]` is `BitVec.getLsbD v i`. -/
abbrev Word := BitVec 32

/-- A byte of memory: 8 bits (20_memory R61). -/
abbrev Byte := BitVec 8

/-- A halfword of the instruction stream: 16 bits (30_encoding R90, R105). -/
abbrev Half := BitVec 16

/-- The number of byte addresses: an address is a 32-bit value (20_memory R60; 92_eei_decisions D4). -/
abbrev addressCount : Nat := 4294967296

end Sys2Proof
end

