-- ==== Sys2Proof/Config.lean ====
section
/-! DEFINITION. The parameters of the model that the spec leaves OPEN (00_scope R6), as one record of plain data. A launch
fixes them; no instruction reads them back as data and none changes them. They are held in the machine's State, so that a
statement over every state is a statement over every value of every parameter. The spec leaves no instruction result
undefined, so there is no free value here (notes/assumptions/15.md). -/

namespace Sys2Proof

/-- A run of consecutive byte addresses: `base`, `base + 1`, ..., `base + size - 1`. -/
structure Range where
  base : Nat
  size : Nat
deriving DecidableEq, Repr

/-- The byte address `a` lies in the range. -/
def Range.contains (r : Range) (a : Nat) : Bool := decide (r.base ≤ a) && decide (a < r.base + r.size)

/-- What an access does with the memory it names (00_scope R6, `cfg.memAdmits`). -/
inductive Access where
  | read
  | write
  | fetch
deriving DecidableEq, Repr

/-- A piece of the launch memory: plain memory without side effects, with what it admits (20_memory R72). -/
structure Region where
  range : Range
  read : Bool
  write : Bool
  exec : Bool
deriving DecidableEq, Repr

/-- The region holds the byte at `a` and admits the access `acc` to it (20_memory R72). -/
def Region.admits (r : Region) (acc : Access) (a : Nat) : Bool :=
  r.range.contains a &&
    match acc with
    | .read => r.read
    | .write => r.write
    | .fetch => r.exec

/-- The OPEN parameters of 00_scope R6. `cfg.unalignTrpAtLaunch` is not here: it is the launch value of the State field
`unalignTrp`. `cfg.dataBigEndian` is not here: the spec fixes it to false (20_memory R68; 92_eei_decisions D3). -/
structure Config where
  /-- `cfg.prioBits`: the number of implemented bits of BASEPRI, 3 to 8 (10_state R34). -/
  prioBits : Nat
  /-- `cfg.hasFP`: CONTROL bit[2] exists (10_state R35). -/
  hasFP : Bool
  /-- `cfg.memAdmits` as plain data: the launch memory (20_memory R72). -/
  regions : List Region
  /-- The addresses where `cfg.regionSupportsUnaligned` is false (20_memory R66). -/
  noUnaligned : List Range
  /-- The program text, which is immutable during a run (20_memory R77). -/
  text : List Range
  /-- `cfg.haltAddr`: the address at which a run ends (00_scope R10). An odd value is the address of no instruction. -/
  haltAddr : Word
deriving DecidableEq, Repr

/-- `cfg.memAdmits(a, n, acc)`: every one of the `n` bytes from `a` on lies in launch memory that admits the access
(00_scope R6; 20_memory R72). -/
def Config.admits (c : Config) (acc : Access) (a n : Nat) : Bool :=
  (List.range n).all fun i => c.regions.any (·.admits acc (a + i))

/-- `cfg.regionSupportsUnaligned(a)` (20_memory R66). -/
def Config.supportsUnaligned (c : Config) (a : Nat) : Bool := !c.noUnaligned.any (·.contains a)

/-- One of the `n` bytes from `a` on lies in the program text (20_memory R77). -/
def Config.touchesText (c : Config) (a n : Nat) : Bool :=
  (List.range n).any fun i => c.text.any (·.contains (a + i))

/-- The values a parameter may take: `cfg.prioBits` is 3 to 8 (00_scope R6; 10_state R34). -/
def Config.wf (c : Config) : Bool := decide (3 ≤ c.prioBits) && decide (c.prioBits ≤ 8)

/-- The launch memory at reset: the Code, SRAM and external RAM areas of the map of 20_memory R72, each admitting every
access. PRESUMED (the map is the spec's general knowledge); DESIGN CHOICE (what each area admits):
notes/assumptions/4.md. The device, private peripheral and vendor areas are not plain memory and are left out. -/
def Config.resetRegions : List Region :=
  [ { range := { base := 0x00000000, size := 0x20000000 }, read := true, write := true, exec := true },
    { range := { base := 0x20000000, size := 0x20000000 }, read := true, write := true, exec := true },
    { range := { base := 0x60000000, size := 0x40000000 }, read := true, write := true, exec := true } ]

/-- The parameters at `State.reset`. `prioBits = 4`, `hasFP = false` and `haltAddr` are those of 95_test_vectors 2.9 and
section 3 (DESIGN CHOICE: notes/assumptions/5.md); every address supports unaligned accesses (the default of 00_scope R6);
no program text is declared, since no program is loaded (notes/assumptions/6.md). -/
def Config.reset : Config :=
  { prioBits := 4, hasFP := false, regions := Config.resetRegions, noUnaligned := [], text := [], haltAddr := 0x0FFFFFFE#32 }

end Sys2Proof
end

