-- ==== Sys2Proof/Syntax.lean ====
section
/-! DEFINITION. The instructions: one constructor of `Instr` for each of the 133 rows of spec/opcode_table.json, in the
table's order, with the fields the row's encoding has. The two rows that share a mnemonic (LDR Rt, label and LDM) are two
constructors. Registers and condition codes are names; immediate fields keep the width the encoding gives them. -/

namespace Sys2Proof

/-- The core registers (10_state R20): R0 to R12, the stack pointer, the link register, the program counter. -/
inductive Reg where
  | r0 | r1 | r2 | r3 | r4 | r5 | r6 | r7 | r8 | r9 | r10 | r11 | r12
  | sp | lr | pc
deriving DecidableEq, Repr

/-- The low registers R0 to R7, to which most 16-bit encodings are limited (10_state R20). -/
inductive LowReg where
  | r0 | r1 | r2 | r3 | r4 | r5 | r6 | r7
deriving DecidableEq, Repr

/-- A low register as a core register. -/
def LowReg.reg : LowReg → Reg
  | .r0 => .r0 | .r1 => .r1 | .r2 => .r2 | .r3 => .r3
  | .r4 => .r4 | .r5 => .r5 | .r6 => .r6 | .r7 => .r7

/-- The fifteen condition codes (44_branch_and_conditional R241; CS is also HS, CC is also LO). -/
inductive Cond where
  | eq | ne | cs | cc | mi | pl | vs | vc | hi | ls | ge | lt | gt | le | al
deriving DecidableEq, Repr

/-- The two-bit shift type field of a 32-bit encoding (30_encoding R102); `ror` with a zero length field is RRX. -/
inductive ShiftType where
  | lsl | lsr | asr | ror
deriving DecidableEq, Repr

/-- The instructions. `sf` is the S bit, `u` the add bit, `w` the writeback bit, `p` and `m` say that PC and LR are in a
register list. `imm12` of a `...Const` is the field `i : imm3 : imm8` of an Operand2 constant (30_encoding R101); `ty` and
`imm5` of a `...Shift` are the shift of an Operand2 register (30_encoding R102); `imm6` of CBZ and CBNZ is `i : imm5`;
`imm20` of B<c>.W is `S : J2 : J1 : imm6 : imm11`; `imm24` of B.W and BL is `S : I1 : I2 : imm10 : imm11` (30_encoding
R103). -/
inductive Instr where
  /-- `LSLS Rd, Rm, #imm5`: T16.SHI, 16 bits, R201. -/
  | lslsImm16 (rd rm : LowReg) (imm5 : BitVec 5)
  /-- `MOVS Rd, Rm`: T16.SHI, 16 bits, R161. -/
  | movsReg16 (rd rm : LowReg)
  /-- `LSRS Rd, Rm, #imm5`: T16.SHI, 16 bits, R200. -/
  | lsrsImm16 (rd rm : LowReg) (imm5 : BitVec 5)
  /-- `ASRS Rd, Rm, #imm5`: T16.SHI, 16 bits, R199. -/
  | asrsImm16 (rd rm : LowReg) (imm5 : BitVec 5)
  /-- `ADDS Rd, Rn, Rm`: T16.ADD3, 16 bits, R173. -/
  | addsReg16 (rd rn rm : LowReg)
  /-- `ADDS Rd, Rn, #imm3`: T16.ADD3, 16 bits, R173. -/
  | addsImm3 (rd rn : LowReg) (imm3 : BitVec 3)
  /-- `MOVS Rd, #imm8`: T16.IMM8, 16 bits, R161. -/
  | movsImm8 (rd : LowReg) (imm8 : BitVec 8)
  /-- `CMP Rn, #imm8`: T16.IMM8, 16 bits, R170. -/
  | cmpImm8 (rn : LowReg) (imm8 : BitVec 8)
  /-- `ADDS Rdn, #imm8`: T16.IMM8, 16 bits, R173. -/
  | addsImm8 (rdn : LowReg) (imm8 : BitVec 8)
  /-- `ANDS Rdn, Rm`: T16.DP, 16 bits, R163. -/
  | andsReg16 (rdn rm : LowReg)
  /-- `EORS Rdn, Rm`: T16.DP, 16 bits, R166. -/
  | eorsReg16 (rdn rm : LowReg)
  /-- `LSLS Rdn, Rs`: T16.DP, 16 bits, R201. -/
  | lslsReg16 (rdn rs : LowReg)
  /-- `LSRS Rdn, Rs`: T16.DP, 16 bits, R200. -/
  | lsrsReg16 (rdn rs : LowReg)
  /-- `ASRS Rdn, Rs`: T16.DP, 16 bits, R199. -/
  | asrsReg16 (rdn rs : LowReg)
  /-- `RORS Rdn, Rs`: T16.DP, 16 bits, R202. -/
  | rorsReg16 (rdn rs : LowReg)
  /-- `TST Rn, Rm`: T16.DP, 16 bits, R169. -/
  | tstReg16 (rn rm : LowReg)
  /-- `RSBS Rd, Rn, #0`: T16.DP, 16 bits, R172. -/
  | rsbsZero16 (rd rn : LowReg)
  /-- `CMP Rn, Rm`: T16.DP, 16 bits, R170. -/
  | cmpReg16 (rn rm : LowReg)
  /-- `CMN Rn, Rm`: T16.DP, 16 bits, R171. -/
  | cmnReg16 (rn rm : LowReg)
  /-- `ORRS Rdn, Rm`: T16.DP, 16 bits, R164. -/
  | orrsReg16 (rdn rm : LowReg)
  /-- `BICS Rdn, Rm`: T16.DP, 16 bits, R167. -/
  | bicsReg16 (rdn rm : LowReg)
  /-- `MVNS Rd, Rm`: T16.DP, 16 bits, R162. -/
  | mvnsReg16 (rd rm : LowReg)
  /-- `ADD Rdn, Rm`: T16.SPECIAL, 16 bits, R173. -/
  | addHigh (rdn rm : Reg)
  /-- `CMP Rn, Rm (high)`: T16.SPECIAL, 16 bits, R170. -/
  | cmpHigh (rn rm : Reg)
  /-- `MOV Rd, Rm`: T16.SPECIAL, 16 bits, R161. -/
  | movHigh (rd rm : Reg)
  /-- `BX Rm`: T16.SPECIAL, 16 bits, R251. -/
  | bx (rm : Reg)
  /-- `BLX Rm`: T16.SPECIAL, 16 bits, R252. -/
  | blx (rm : Reg)
  /-- `LDR Rt, label`: T16.LDRLIT, 16 bits, R214. -/
  | ldrLit16 (rt : LowReg) (imm8 : BitVec 8)
  /-- `STR Rt, [Rn, Rm]`: T16.LSREG, 16 bits, R220. -/
  | strReg16 (rt rn rm : LowReg)
  /-- `STRH Rt, [Rn, Rm]`: T16.LSREG, 16 bits, R222. -/
  | strhReg16 (rt rn rm : LowReg)
  /-- `LDR Rt, [Rn, Rm]`: T16.LSREG, 16 bits, R214. -/
  | ldrReg16 (rt rn rm : LowReg)
  /-- `LDRH Rt, [Rn, Rm]`: T16.LSREG, 16 bits, R216. -/
  | ldrhReg16 (rt rn rm : LowReg)
  /-- `LDRSH Rt, [Rn, Rm]`: T16.LSREG, 16 bits, R218. -/
  | ldrshReg16 (rt rn rm : LowReg)
  /-- `STR Rt, [Rn, #imm5*4]`: T16.LSIMM, 16 bits, R220. -/
  | strImm16 (rt rn : LowReg) (imm5 : BitVec 5)
  /-- `LDR Rt, [Rn, #imm5*4]`: T16.LSIMM, 16 bits, R214. -/
  | ldrImm16 (rt rn : LowReg) (imm5 : BitVec 5)
  /-- `STRH Rt, [Rn, #imm5*2]`: T16.LSIMM, 16 bits, R222. -/
  | strhImm16 (rt rn : LowReg) (imm5 : BitVec 5)
  /-- `LDRH Rt, [Rn, #imm5*2]`: T16.LSIMM, 16 bits, R216. -/
  | ldrhImm16 (rt rn : LowReg) (imm5 : BitVec 5)
  /-- `STR Rt, [SP, #imm8*4]`: T16.LSSP, 16 bits, R220. -/
  | strSp16 (rt : LowReg) (imm8 : BitVec 8)
  /-- `LDR Rt, [SP, #imm8*4]`: T16.LSSP, 16 bits, R214. -/
  | ldrSp16 (rt : LowReg) (imm8 : BitVec 8)
  /-- `CBZ Rn, label`: T16.CB, 16 bits, R249. -/
  | cbz (rn : LowReg) (imm6 : BitVec 6)
  /-- `CBNZ Rn, label`: T16.CB, 16 bits, R250. -/
  | cbnz (rn : LowReg) (imm6 : BitVec 6)
  /-- `POP reglist`: T16.POP, 16 bits, R225. -/
  | pop16 (p : Bool) (list : BitVec 8)
  /-- `IT(x(y(z))) cond`: T16.IT, 16 bits, R244. -/
  | it (firstcond : Cond) (mask : BitVec 4)
  /-- `LDM Rn(!), reglist`: T16.LDM, 16 bits, R224. -/
  | ldm16 (rn : LowReg) (list : BitVec 8)
  /-- `B<cond> label`: T16.BCOND, 16 bits, R247. -/
  | bCond16 (c : Cond) (imm8 : BitVec 8)
  /-- `B label`: T16.B, 16 bits, R247. -/
  | b16 (imm11 : BitVec 11)
  /-- `AND(S) Rd, Rn, #const`: T32.DPMI, 32 bits, R163. -/
  | andConst (sf : Bool) (rd rn : Reg) (imm12 : BitVec 12)
  /-- `BIC(S) Rd, Rn, #const`: T32.DPMI, 32 bits, R167. -/
  | bicConst (sf : Bool) (rd rn : Reg) (imm12 : BitVec 12)
  /-- `ORR(S) Rd, Rn, #const`: T32.DPMI, 32 bits, R164. -/
  | orrConst (sf : Bool) (rd rn : Reg) (imm12 : BitVec 12)
  /-- `ORN(S) Rd, Rn, #const`: T32.DPMI, 32 bits, R165. -/
  | ornConst (sf : Bool) (rd rn : Reg) (imm12 : BitVec 12)
  /-- `EOR(S) Rd, Rn, #const`: T32.DPMI, 32 bits, R166. -/
  | eorConst (sf : Bool) (rd rn : Reg) (imm12 : BitVec 12)
  /-- `ADD(S) Rd, Rn, #const`: T32.DPMI, 32 bits, R173. -/
  | addConst (sf : Bool) (rd rn : Reg) (imm12 : BitVec 12)
  /-- `RSB(S) Rd, Rn, #const`: T32.DPMI, 32 bits, R172. -/
  | rsbConst (sf : Bool) (rd rn : Reg) (imm12 : BitVec 12)
  /-- `TST Rn, #const`: T32.DPMI, 32 bits, R169. -/
  | tstConst (rn : Reg) (imm12 : BitVec 12)
  /-- `TEQ Rn, #const`: T32.DPMI, 32 bits, R168. -/
  | teqConst (rn : Reg) (imm12 : BitVec 12)
  /-- `CMN Rn, #const`: T32.DPMI, 32 bits, R171. -/
  | cmnConst (rn : Reg) (imm12 : BitVec 12)
  /-- `CMP Rn, #const`: T32.DPMI, 32 bits, R170. -/
  | cmpConst (rn : Reg) (imm12 : BitVec 12)
  /-- `MOV(S) Rd, #const`: T32.DPMI, 32 bits, R161. -/
  | movConst (sf : Bool) (rd : Reg) (imm12 : BitVec 12)
  /-- `MVN(S) Rd, #const`: T32.DPMI, 32 bits, R162. -/
  | mvnConst (sf : Bool) (rd : Reg) (imm12 : BitVec 12)
  /-- `AND(S) Rd, Rn, Rm (, shift)`: T32.DPSR, 32 bits, R163. -/
  | andShift (sf : Bool) (rd rn rm : Reg) (ty : ShiftType) (imm5 : BitVec 5)
  /-- `BIC(S) Rd, Rn, Rm (, shift)`: T32.DPSR, 32 bits, R167. -/
  | bicShift (sf : Bool) (rd rn rm : Reg) (ty : ShiftType) (imm5 : BitVec 5)
  /-- `ORR(S) Rd, Rn, Rm (, shift)`: T32.DPSR, 32 bits, R164. -/
  | orrShift (sf : Bool) (rd rn rm : Reg) (ty : ShiftType) (imm5 : BitVec 5)
  /-- `ORN(S) Rd, Rn, Rm (, shift)`: T32.DPSR, 32 bits, R165. -/
  | ornShift (sf : Bool) (rd rn rm : Reg) (ty : ShiftType) (imm5 : BitVec 5)
  /-- `EOR(S) Rd, Rn, Rm (, shift)`: T32.DPSR, 32 bits, R166. -/
  | eorShift (sf : Bool) (rd rn rm : Reg) (ty : ShiftType) (imm5 : BitVec 5)
  /-- `ADD(S) Rd, Rn, Rm (, shift)`: T32.DPSR, 32 bits, R173. -/
  | addShift (sf : Bool) (rd rn rm : Reg) (ty : ShiftType) (imm5 : BitVec 5)
  /-- `RSB(S) Rd, Rn, Rm (, shift)`: T32.DPSR, 32 bits, R172. -/
  | rsbShift (sf : Bool) (rd rn rm : Reg) (ty : ShiftType) (imm5 : BitVec 5)
  /-- `TST Rn, Rm (, shift)`: T32.DPSR, 32 bits, R169. -/
  | tstShift (rn rm : Reg) (ty : ShiftType) (imm5 : BitVec 5)
  /-- `TEQ Rn, Rm (, shift)`: T32.DPSR, 32 bits, R168. -/
  | teqShift (rn rm : Reg) (ty : ShiftType) (imm5 : BitVec 5)
  /-- `CMN Rn, Rm (, shift)`: T32.DPSR, 32 bits, R171. -/
  | cmnShift (rn rm : Reg) (ty : ShiftType) (imm5 : BitVec 5)
  /-- `CMP Rn, Rm (, shift)`: T32.DPSR, 32 bits, R170. -/
  | cmpShift (rn rm : Reg) (ty : ShiftType) (imm5 : BitVec 5)
  /-- `MOV(S) Rd, Rm`: T32.DPSR, 32 bits, R161. -/
  | movReg32 (sf : Bool) (rd rm : Reg)
  /-- `LSL(S) Rd, Rm, #imm5`: T32.DPSR, 32 bits, R201. -/
  | lslImm32 (sf : Bool) (rd rm : Reg) (imm5 : BitVec 5)
  /-- `LSR(S) Rd, Rm, #imm5`: T32.DPSR, 32 bits, R200. -/
  | lsrImm32 (sf : Bool) (rd rm : Reg) (imm5 : BitVec 5)
  /-- `ASR(S) Rd, Rm, #imm5`: T32.DPSR, 32 bits, R199. -/
  | asrImm32 (sf : Bool) (rd rm : Reg) (imm5 : BitVec 5)
  /-- `ROR(S) Rd, Rm, #imm5`: T32.DPSR, 32 bits, R202. -/
  | rorImm32 (sf : Bool) (rd rm : Reg) (imm5 : BitVec 5)
  /-- `RRX(S) Rd, Rm`: T32.DPSR, 32 bits, R203. -/
  | rrx (sf : Bool) (rd rm : Reg)
  /-- `MVN(S) Rd, Rm (, shift)`: T32.DPSR, 32 bits, R162. -/
  | mvnShift (sf : Bool) (rd rm : Reg) (ty : ShiftType) (imm5 : BitVec 5)
  /-- `LSL(S) Rd, Rm, Rs`: T32.SHREG, 32 bits, R201. -/
  | lslReg32 (sf : Bool) (rd rm rs : Reg)
  /-- `LSR(S) Rd, Rm, Rs`: T32.SHREG, 32 bits, R200. -/
  | lsrReg32 (sf : Bool) (rd rm rs : Reg)
  /-- `ASR(S) Rd, Rm, Rs`: T32.SHREG, 32 bits, R199. -/
  | asrReg32 (sf : Bool) (rd rm rs : Reg)
  /-- `ROR(S) Rd, Rm, Rs`: T32.SHREG, 32 bits, R202. -/
  | rorReg32 (sf : Bool) (rd rm rs : Reg)
  /-- `B<cond>.W label`: T32.BCOND, 32 bits, R247. -/
  | bCond32 (c : Cond) (imm20 : BitVec 20)
  /-- `B.W label`: T32.B, 32 bits, R247. -/
  | b32 (imm24 : BitVec 24)
  /-- `BL label`: T32.BL, 32 bits, R248. -/
  | bl (imm24 : BitVec 24)
  /-- `get_PRIMASK = MRS Rd, PRIMASK`: T32.MRS, 32 bits, R133. -/
  | getPrimask (rd : Reg)
  /-- `set_PRIMASK = MSR PRIMASK, Rn`: T32.MSR, 32 bits, R134. -/
  | setPrimask (rn : Reg)
  /-- `get_FAULTMASK = MRS Rd, FAULTMASK`: T32.MRS, 32 bits, R135. -/
  | getFaultmask (rd : Reg)
  /-- `set_FAULTMASK = MSR FAULTMASK, Rn`: T32.MSR, 32 bits, R136. -/
  | setFaultmask (rn : Reg)
  /-- `get_BASEPRI = MRS Rd, BASEPRI`: T32.MRS, 32 bits, R137. -/
  | getBasepri (rd : Reg)
  /-- `set_BASEPRI = MSR BASEPRI, Rn`: T32.MSR, 32 bits, R138. -/
  | setBasepri (rn : Reg)
  /-- `get_CONTROL = MRS Rd, CONTROL`: T32.MRS, 32 bits, R139. -/
  | getControl (rd : Reg)
  /-- `set_CONTROL = MSR CONTROL, Rn`: T32.MSR, 32 bits, R140. -/
  | setControl (rn : Reg)
  /-- `get_MSP = MRS Rd, MSP`: T32.MRS, 32 bits, R141. -/
  | getMsp (rd : Reg)
  /-- `set_MSP = MSR MSP, Rn`: T32.MSR, 32 bits, R142. -/
  | setMsp (rn : Reg)
  /-- `get_PSP = MRS Rd, PSP`: T32.MRS, 32 bits, R143. -/
  | getPsp (rd : Reg)
  /-- `set_PSP = MSR PSP, Rn`: T32.MSR, 32 bits, R144. -/
  | setPsp (rn : Reg)
  /-- `LDR Rt, [Rn, #imm12]`: T32.LS12, 32 bits, R214. -/
  | ldrImm12 (rt rn : Reg) (imm12 : BitVec 12)
  /-- `LDR Rt, [Rn, #-imm8]`: T32.LS8, 32 bits, R214. -/
  | ldrNeg8 (rt rn : Reg) (imm8 : BitVec 8)
  /-- `LDR Rt, [Rn, #±imm8]!`: T32.LS8, 32 bits, R214. -/
  | ldrPre (rt rn : Reg) (u : Bool) (imm8 : BitVec 8)
  /-- `LDR Rt, [Rn], #±imm8`: T32.LS8, 32 bits, R214. -/
  | ldrPost (rt rn : Reg) (u : Bool) (imm8 : BitVec 8)
  /-- `LDRT Rt, [Rn, #imm8]`: T32.LS8, 32 bits, R215. -/
  | ldrt (rt rn : Reg) (imm8 : BitVec 8)
  /-- `LDR Rt, [Rn, Rm (, LSL #imm2)]`: T32.LSR, 32 bits, R214. -/
  | ldrReg32 (rt rn rm : Reg) (imm2 : BitVec 2)
  /-- `LDR Rt, label`: T32.LSLIT, 32 bits, R214. -/
  | ldrLit32 (u : Bool) (rt : Reg) (imm12 : BitVec 12)
  /-- `LDRH Rt, [Rn, #imm12]`: T32.LS12, 32 bits, R216. -/
  | ldrhImm12 (rt rn : Reg) (imm12 : BitVec 12)
  /-- `LDRH Rt, [Rn, #-imm8]`: T32.LS8, 32 bits, R216. -/
  | ldrhNeg8 (rt rn : Reg) (imm8 : BitVec 8)
  /-- `LDRH Rt, [Rn, #±imm8]!`: T32.LS8, 32 bits, R216. -/
  | ldrhPre (rt rn : Reg) (u : Bool) (imm8 : BitVec 8)
  /-- `LDRH Rt, [Rn], #±imm8`: T32.LS8, 32 bits, R216. -/
  | ldrhPost (rt rn : Reg) (u : Bool) (imm8 : BitVec 8)
  /-- `LDRHT Rt, [Rn, #imm8]`: T32.LS8, 32 bits, R217. -/
  | ldrht (rt rn : Reg) (imm8 : BitVec 8)
  /-- `LDRH Rt, [Rn, Rm (, LSL #imm2)]`: T32.LSR, 32 bits, R216. -/
  | ldrhReg32 (rt rn rm : Reg) (imm2 : BitVec 2)
  /-- `LDRH Rt, label`: T32.LSLIT, 32 bits, R216. -/
  | ldrhLit32 (u : Bool) (rt : Reg) (imm12 : BitVec 12)
  /-- `LDRSH Rt, [Rn, #imm12]`: T32.LS12, 32 bits, R218. -/
  | ldrshImm12 (rt rn : Reg) (imm12 : BitVec 12)
  /-- `LDRSH Rt, [Rn, #-imm8]`: T32.LS8, 32 bits, R218. -/
  | ldrshNeg8 (rt rn : Reg) (imm8 : BitVec 8)
  /-- `LDRSH Rt, [Rn, #±imm8]!`: T32.LS8, 32 bits, R218. -/
  | ldrshPre (rt rn : Reg) (u : Bool) (imm8 : BitVec 8)
  /-- `LDRSH Rt, [Rn], #±imm8`: T32.LS8, 32 bits, R218. -/
  | ldrshPost (rt rn : Reg) (u : Bool) (imm8 : BitVec 8)
  /-- `LDRSHT Rt, [Rn, #imm8]`: T32.LS8, 32 bits, R219. -/
  | ldrsht (rt rn : Reg) (imm8 : BitVec 8)
  /-- `LDRSH Rt, [Rn, Rm (, LSL #imm2)]`: T32.LSR, 32 bits, R218. -/
  | ldrshReg32 (rt rn rm : Reg) (imm2 : BitVec 2)
  /-- `LDRSH Rt, label`: T32.LSLIT, 32 bits, R218. -/
  | ldrshLit32 (u : Bool) (rt : Reg) (imm12 : BitVec 12)
  /-- `STR Rt, [Rn, #imm12]`: T32.LS12, 32 bits, R220. -/
  | strImm12 (rt rn : Reg) (imm12 : BitVec 12)
  /-- `STR Rt, [Rn, #-imm8]`: T32.LS8, 32 bits, R220. -/
  | strNeg8 (rt rn : Reg) (imm8 : BitVec 8)
  /-- `STR Rt, [Rn, #±imm8]!`: T32.LS8, 32 bits, R220. -/
  | strPre (rt rn : Reg) (u : Bool) (imm8 : BitVec 8)
  /-- `STR Rt, [Rn], #±imm8`: T32.LS8, 32 bits, R220. -/
  | strPost (rt rn : Reg) (u : Bool) (imm8 : BitVec 8)
  /-- `STRT Rt, [Rn, #imm8]`: T32.LS8, 32 bits, R221. -/
  | strt (rt rn : Reg) (imm8 : BitVec 8)
  /-- `STR Rt, [Rn, Rm (, LSL #imm2)]`: T32.LSR, 32 bits, R220. -/
  | strReg32 (rt rn rm : Reg) (imm2 : BitVec 2)
  /-- `STRH Rt, [Rn, #imm12]`: T32.LS12, 32 bits, R222. -/
  | strhImm12 (rt rn : Reg) (imm12 : BitVec 12)
  /-- `STRH Rt, [Rn, #-imm8]`: T32.LS8, 32 bits, R222. -/
  | strhNeg8 (rt rn : Reg) (imm8 : BitVec 8)
  /-- `STRH Rt, [Rn, #±imm8]!`: T32.LS8, 32 bits, R222. -/
  | strhPre (rt rn : Reg) (u : Bool) (imm8 : BitVec 8)
  /-- `STRH Rt, [Rn], #±imm8`: T32.LS8, 32 bits, R222. -/
  | strhPost (rt rn : Reg) (u : Bool) (imm8 : BitVec 8)
  /-- `STRHT Rt, [Rn, #imm8]`: T32.LS8, 32 bits, R223. -/
  | strht (rt rn : Reg) (imm8 : BitVec 8)
  /-- `STRH Rt, [Rn, Rm (, LSL #imm2)]`: T32.LSR, 32 bits, R222. -/
  | strhReg32 (rt rn rm : Reg) (imm2 : BitVec 2)
  /-- `LDM Rn(!), reglist`: T32.LDM, 32 bits, R224. -/
  | ldm32 (w : Bool) (rn : Reg) (p m : Bool) (list : BitVec 13)
  /-- `LDMDB Rn(!), reglist`: T32.LDM, 32 bits, R224. -/
  | ldmdb (w : Bool) (rn : Reg) (p m : Bool) (list : BitVec 13)
  /-- `POP.W reglist`: T32.LDM, 32 bits, R225. -/
  | popW (p m : Bool) (list : BitVec 13)
  /-- `POP.W (Rt)`: T32.POP1, 32 bits, R225. -/
  | popWOne (rt : Reg)
deriving DecidableEq, Repr

end Sys2Proof
end

