-- ==== Sys2Proof/WellFormed.lean ====
section
/-! DEFINITION. Which instruction terms are instructions: the register restrictions (41_operand2_data_processing R151,
44_branch_and_conditional R255, 93_implementation_defined U6) and the operand ranges (30_encoding R95, R101, R119) that the
rows of spec/opcode_table.json carry as `excludes`, `distinct` and `constraints`. Restrictions that depend on the machine's
state (the place in an IT block, the alignment of an address) are not here: they stand in Machine/Ops.lean. -/

namespace Sys2Proof

/-- R0 to R12 or LR: the registers a data-processing or shift instruction may name (R151). -/
def Reg.isGpr (r : Reg) : Bool := decide (r ≠ .sp) && decide (r ≠ .pc)

/-- Any register but the PC. -/
def Reg.notPc (r : Reg) : Bool := decide (r ≠ .pc)

/-- R0 to R7 (10_state R20). -/
def Reg.isLow (r : Reg) : Bool :=
  match r with
  | .r0 | .r1 | .r2 | .r3 | .r4 | .r5 | .r6 | .r7 => true
  | .r8 | .r9 | .r10 | .r11 | .r12 | .sp | .lr | .pc => false

/-- The number of the register in a register list: R0 to R12 are 0 to 12, SP 13, LR 14, PC 15 (10_state R20). -/
def Reg.num (r : Reg) : Nat :=
  match r with
  | .r0 => 0 | .r1 => 1 | .r2 => 2 | .r3 => 3 | .r4 => 4 | .r5 => 5 | .r6 => 6 | .r7 => 7
  | .r8 => 8 | .r9 => 9 | .r10 => 10 | .r11 => 11 | .r12 => 12 | .sp => 13 | .lr => 14 | .pc => 15

/-- A modified-immediate field `i : imm3 : imm8` that is a constant: a replicated form with `imm8 = 0` is none
(30_encoding R101; U6 (h)). -/
def constOk (imm12 : BitVec 12) : Bool :=
  !(decide (imm12.toNat / 1024 = 0) && decide (imm12.toNat / 256 % 4 ≠ 0) && decide (imm12.toNat % 256 = 0))

/-- The number of registers a 13-bit list with its P and M bits names. -/
def listSize (p m : Bool) (list : BitVec 13) : Nat :=
  ((List.range 13).filter fun i => list.getLsbD i).length + m.toNat + p.toNat

/-- The list of a 32-bit LDM, LDMDB or POP: at least two registers, not both PC and LR (U6 (e)). -/
def listOk (p m : Bool) (list : BitVec 13) : Bool := decide (2 ≤ listSize p m list) && !(p && m)

/-- Rn is in the register list of a 32-bit LDM (bit 14 is LR, bit 15 is PC; SP never is). -/
def inList (rn : Reg) (p m : Bool) (list : BitVec 13) : Bool :=
  match rn with
  | .sp => false
  | .lr => m
  | .pc => p
  | r => list.getLsbD r.num

/-- The base register of a writeback form is not PC and not Rt (U6 (d)). -/
def indexOk (rt rn : Reg) : Bool := rn.notPc && decide (rn ≠ rt)

/-- An IT instruction's mask and condition: mask not 0000; with AL no E, so that only the terminating 1 of the mask is set
(44_branch_and_conditional R244; 30_encoding R117; notes/assumptions/13.md). -/
def itOk (firstcond : Cond) (mask : BitVec 4) : Bool :=
  match firstcond with
  | .al => decide (mask = 8#4) || decide (mask = 4#4) || decide (mask = 2#4) || decide (mask = 1#4)
  | .eq | .ne | .cs | .cc | .mi | .pl | .vs | .vc | .hi | .ls | .ge | .lt | .gt | .le => decide (mask ≠ 0#4)

/-- The instruction terms the spec admits. -/
def Instr.wellFormed (i : Instr) : Bool :=
  match i with
  -- T16.SHI (R110)
  | .lslsImm16 _ _ imm5 => decide (imm5 ≠ 0#5)
  | .movsReg16 _ _ | .lsrsImm16 _ _ _ | .asrsImm16 _ _ _ => true
  -- T16.ADD3, T16.IMM8 (R111)
  | .addsReg16 _ _ _ | .addsImm3 _ _ _ | .movsImm8 _ _ | .cmpImm8 _ _ | .addsImm8 _ _ => true
  -- T16.DP (R112)
  | .andsReg16 _ _ | .eorsReg16 _ _ | .lslsReg16 _ _ | .lsrsReg16 _ _ | .asrsReg16 _ _ | .rorsReg16 _ _ => true
  | .tstReg16 _ _ | .rsbsZero16 _ _ | .cmpReg16 _ _ | .cmnReg16 _ _ | .orrsReg16 _ _ | .bicsReg16 _ _ => true
  | .mvnsReg16 _ _ => true
  -- T16.SPECIAL (R113)
  | .addHigh rdn rm => rdn.isGpr && rm.isGpr
  | .cmpHigh rn rm => rn.isGpr && rm.isGpr && !(rn.isLow && rm.isLow)
  | .movHigh rd rm => rd.isGpr && rm.isGpr
  | .bx rm => rm.notPc
  | .blx rm => rm.isGpr
  -- 16-bit loads and stores (R114)
  | .ldrLit16 _ _ => true
  | .strReg16 _ _ _ | .strhReg16 _ _ _ | .ldrReg16 _ _ _ | .ldrhReg16 _ _ _ | .ldrshReg16 _ _ _ => true
  | .strImm16 _ _ _ | .ldrImm16 _ _ _ | .strhImm16 _ _ _ | .ldrhImm16 _ _ _ => true
  | .strSp16 _ _ | .ldrSp16 _ _ => true
  -- 16-bit branches, IT, POP, LDM (R114, R115)
  | .cbz _ _ | .cbnz _ _ => true
  | .pop16 p list => p || decide (list ≠ 0#8)
  | .it firstcond mask => itOk firstcond mask
  | .ldm16 _ list => decide (list ≠ 0#8)
  | .bCond16 c _ => decide (c ≠ .al)
  | .b16 _ => true
  -- T32.DPMI (R116)
  | .andConst _ rd rn imm12 | .bicConst _ rd rn imm12 | .orrConst _ rd rn imm12 | .ornConst _ rd rn imm12
  | .eorConst _ rd rn imm12 | .addConst _ rd rn imm12 | .rsbConst _ rd rn imm12 =>
    rd.isGpr && rn.isGpr && constOk imm12
  | .tstConst rn imm12 | .teqConst rn imm12 | .cmnConst rn imm12 | .cmpConst rn imm12 => rn.isGpr && constOk imm12
  | .movConst _ rd imm12 | .mvnConst _ rd imm12 => rd.isGpr && constOk imm12
  -- T32.DPSR (R116)
  | .andShift _ rd rn rm _ _ | .bicShift _ rd rn rm _ _ | .orrShift _ rd rn rm _ _ | .ornShift _ rd rn rm _ _
  | .eorShift _ rd rn rm _ _ | .addShift _ rd rn rm _ _ | .rsbShift _ rd rn rm _ _ =>
    rd.isGpr && rn.isGpr && rm.isGpr
  | .tstShift rn rm _ _ | .teqShift rn rm _ _ | .cmnShift rn rm _ _ | .cmpShift rn rm _ _ => rn.isGpr && rm.isGpr
  | .movReg32 _ rd rm | .rrx _ rd rm => rd.isGpr && rm.isGpr
  | .lslImm32 _ rd rm imm5 | .rorImm32 _ rd rm imm5 => rd.isGpr && rm.isGpr && decide (imm5 ≠ 0#5)
  | .lsrImm32 _ rd rm _ | .asrImm32 _ rd rm _ => rd.isGpr && rm.isGpr
  | .mvnShift _ rd rm _ _ => rd.isGpr && rm.isGpr
  -- T32.SHREG (R116)
  | .lslReg32 _ rd rm rs | .lsrReg32 _ rd rm rs | .asrReg32 _ rd rm rs | .rorReg32 _ rd rm rs =>
    rd.isGpr && rm.isGpr && rs.isGpr
  -- 32-bit branches (R116)
  | .bCond32 c _ => decide (c ≠ .al)
  | .b32 _ | .bl _ => true
  -- MRS, MSR (R116; U6 (f))
  | .getPrimask r | .setPrimask r | .getFaultmask r | .setFaultmask r | .getBasepri r | .setBasepri r => r.isGpr
  | .getControl r | .setControl r | .getMsp r | .setMsp r | .getPsp r | .setPsp r => r.isGpr
  -- LDR (R214)
  | .ldrImm12 _ rn _ | .ldrNeg8 _ rn _ => rn.notPc
  | .ldrPre rt rn _ _ => indexOk rt rn
  | .ldrPost rt rn u imm8 => indexOk rt rn && !(decide (rn = .sp) && u && decide (imm8 = 4#8))
  | .ldrt rt rn _ => rn.notPc && rt.isGpr
  | .ldrReg32 _ rn rm _ => rn.notPc && rm.isGpr
  | .ldrLit32 _ _ _ => true
  -- LDRH, LDRSH (R216, R218)
  | .ldrhImm12 rt rn _ | .ldrhNeg8 rt rn _ | .ldrht rt rn _ => rn.notPc && rt.isGpr
  | .ldrshImm12 rt rn _ | .ldrshNeg8 rt rn _ | .ldrsht rt rn _ => rn.notPc && rt.isGpr
  | .ldrhPre rt rn _ _ | .ldrhPost rt rn _ _ | .ldrshPre rt rn _ _ | .ldrshPost rt rn _ _ => indexOk rt rn && rt.isGpr
  | .ldrhReg32 rt rn rm _ | .ldrshReg32 rt rn rm _ => rn.notPc && rt.isGpr && rm.isGpr
  | .ldrhLit32 _ rt _ | .ldrshLit32 _ rt _ => rt.isGpr
  -- STR (R220)
  | .strImm12 rt rn _ | .strNeg8 rt rn _ => rn.notPc && rt.notPc
  | .strPre rt rn _ _ | .strPost rt rn _ _ => indexOk rt rn && rt.notPc
  | .strt rt rn _ => rn.notPc && rt.isGpr
  | .strReg32 rt rn rm _ => rn.notPc && rt.notPc && rm.isGpr
  -- STRH (R222)
  | .strhImm12 rt rn _ | .strhNeg8 rt rn _ | .strht rt rn _ => rn.notPc && rt.isGpr
  | .strhPre rt rn _ _ | .strhPost rt rn _ _ => indexOk rt rn && rt.isGpr
  | .strhReg32 rt rn rm _ => rn.notPc && rt.isGpr && rm.isGpr
  -- LDM, POP (R224, R225)
  | .ldm32 w rn p m list =>
    rn.notPc && !(decide (rn = .sp) && w) && listOk p m list && !(w && inList rn p m list)
  | .ldmdb w rn p m list => rn.notPc && listOk p m list && !(w && inList rn p m list)
  | .popW p m list => listOk p m list
  | .popWOne rt => decide (rt ≠ .sp)

end Sys2Proof
end

