-- ==== Sys2Proof/Decode.lean ====
section
/-! DEFINITION. The decoder, total on any bytes, and after it the encoder. Both are written from the binary encodings of
30_encoding section 7 (R110 to R119) and the condition numbers of R100: an annex of the spec supplied from general knowledge,
so every encoding here has that authority (notes/assumptions/14.md). A word that matches no row, or violates a row's constraint,
is invalid (R104). -/

namespace Sys2Proof

/-! ## Bit fields and names -/

/-- The field of `w` bits of the halfword `h` whose lowest bit is bit `lo`, as a number. -/
def bits (h : Half) (lo w : Nat) : Nat := h.toNat / 2 ^ lo % 2 ^ w

/-- One bit of the halfword. -/
def bit (h : Half) (k : Nat) : Bool := decide (bits h k 1 = 1)

/-- Register number to register (10_state R20). -/
def Reg.ofNum (n : Nat) : Reg :=
  match n with
  | 0 => .r0 | 1 => .r1 | 2 => .r2 | 3 => .r3 | 4 => .r4 | 5 => .r5 | 6 => .r6 | 7 => .r7
  | 8 => .r8 | 9 => .r9 | 10 => .r10 | 11 => .r11 | 12 => .r12 | 13 => .sp | 14 => .lr
  | _ => .pc

/-- A register field of four bits. -/
def regAt (h : Half) (lo : Nat) : Reg := Reg.ofNum (bits h lo 4)

/-- Low register number to low register. -/
def LowReg.ofNum (n : Nat) : LowReg :=
  match n with
  | 0 => .r0 | 1 => .r1 | 2 => .r2 | 3 => .r3 | 4 => .r4 | 5 => .r5 | 6 => .r6
  | _ => .r7

/-- The number of a low register. -/
def LowReg.num (r : LowReg) : Nat :=
  match r with
  | .r0 => 0 | .r1 => 1 | .r2 => 2 | .r3 => 3 | .r4 => 4 | .r5 => 5 | .r6 => 6 | .r7 => 7

/-- A register field of three bits. -/
def lowAt (h : Half) (lo : Nat) : LowReg := LowReg.ofNum (bits h lo 3)

/-- The condition field (30_encoding R100); 1111 is no condition. -/
def Cond.ofNum (n : Nat) : Option Cond :=
  match n with
  | 0 => some .eq | 1 => some .ne | 2 => some .cs | 3 => some .cc | 4 => some .mi | 5 => some .pl
  | 6 => some .vs | 7 => some .vc | 8 => some .hi | 9 => some .ls | 10 => some .ge | 11 => some .lt
  | 12 => some .gt | 13 => some .le | 14 => some .al
  | _ => none

/-- The number of a condition (30_encoding R100). -/
def Cond.num (c : Cond) : Nat :=
  match c with
  | .eq => 0 | .ne => 1 | .cs => 2 | .cc => 3 | .mi => 4 | .pl => 5 | .vs => 6 | .vc => 7
  | .hi => 8 | .ls => 9 | .ge => 10 | .lt => 11 | .gt => 12 | .le => 13 | .al => 14

/-- The shift type field (30_encoding R102). -/
def ShiftType.ofNum (n : Nat) : ShiftType :=
  match n with
  | 0 => .lsl | 1 => .lsr | 2 => .asr
  | _ => .ror

/-- The number of a shift type (30_encoding R102). -/
def ShiftType.num (t : ShiftType) : Nat :=
  match t with
  | .lsl => 0 | .lsr => 1 | .asr => 2 | .ror => 3

/-- The first halfword of a 32-bit instruction: bits[15:11] are 11101, 11110 or 11111 (30_encoding R93). -/
def is32 (h : Half) : Bool := decide (29 ≤ bits h 11 5)

/-! ## 16-bit formats -/

/-- T16.DP (R112). -/
def parseDp16 (h : Half) : Option Instr :=
  let a := lowAt h 0
  let b := lowAt h 3
  if bits h 6 4 = 0b0000 then some (.andsReg16 a b)
  else if bits h 6 4 = 0b0001 then some (.eorsReg16 a b)
  else if bits h 6 4 = 0b0010 then some (.lslsReg16 a b)
  else if bits h 6 4 = 0b0011 then some (.lsrsReg16 a b)
  else if bits h 6 4 = 0b0100 then some (.asrsReg16 a b)
  else if bits h 6 4 = 0b0111 then some (.rorsReg16 a b)
  else if bits h 6 4 = 0b1000 then some (.tstReg16 a b)
  else if bits h 6 4 = 0b1001 then some (.rsbsZero16 a b)
  else if bits h 6 4 = 0b1010 then some (.cmpReg16 a b)
  else if bits h 6 4 = 0b1011 then some (.cmnReg16 a b)
  else if bits h 6 4 = 0b1100 then some (.orrsReg16 a b)
  else if bits h 6 4 = 0b1110 then some (.bicsReg16 a b)
  else if bits h 6 4 = 0b1111 then some (.mvnsReg16 a b)
  else none

/-- T16.SPECIAL (R113); the first register is the split field bit[7] : bits[2:0]. -/
def parseSpecial16 (h : Half) : Option Instr :=
  let a := Reg.ofNum (bits h 7 1 * 8 + bits h 0 3)
  let b := regAt h 3
  if bits h 8 2 = 0b00 then some (.addHigh a b)
  else if bits h 8 2 = 0b01 then some (.cmpHigh a b)
  else if bits h 8 2 = 0b10 then some (.movHigh a b)
  else if bits h 0 3 = 0 then (if bits h 7 1 = 0 then some (.bx b) else some (.blx b))
  else none

/-- T16.SHI, T16.ADD3 (R110, R111): bits[15:13] are 000. -/
def parseShift16 (h : Half) : Option Instr :=
  let rd := lowAt h 0
  let rm := lowAt h 3
  let imm5 := BitVec.ofNat 5 (bits h 6 5)
  if bits h 11 2 = 0b00 then (if bits h 6 5 = 0 then some (.movsReg16 rd rm) else some (.lslsImm16 rd rm imm5))
  else if bits h 11 2 = 0b01 then some (.lsrsImm16 rd rm imm5)
  else if bits h 11 2 = 0b10 then some (.asrsImm16 rd rm imm5)
  else if bits h 9 2 = 0b00 then some (.addsReg16 rd rm (lowAt h 6))
  else if bits h 9 2 = 0b10 then some (.addsImm3 rd rm (BitVec.ofNat 3 (bits h 6 3)))
  else none

/-- T16.LSREG (R114): bits[15:12] are 0101. -/
def parseLoadStoreReg16 (h : Half) : Option Instr :=
  let rt := lowAt h 0
  let rn := lowAt h 3
  let rm := lowAt h 6
  if bits h 9 3 = 0b000 then some (.strReg16 rt rn rm)
  else if bits h 9 3 = 0b001 then some (.strhReg16 rt rn rm)
  else if bits h 9 3 = 0b100 then some (.ldrReg16 rt rn rm)
  else if bits h 9 3 = 0b101 then some (.ldrhReg16 rt rn rm)
  else if bits h 9 3 = 0b111 then some (.ldrshReg16 rt rn rm)
  else none

/-- The 1011 space: CBZ, CBNZ, POP, IT (R114, R115). -/
def parseMisc16 (h : Half) : Option Instr :=
  let imm6 := BitVec.ofNat 6 (bits h 9 1 * 32 + bits h 3 5)
  if bits h 10 1 = 0 ∧ bits h 8 1 = 1 then
    (if bits h 11 1 = 0 then some (.cbz (lowAt h 0) imm6) else some (.cbnz (lowAt h 0) imm6))
  else if bits h 9 3 = 0b110 then some (.pop16 (bit h 8) (BitVec.ofNat 8 (bits h 0 8)))
  else if bits h 8 4 = 0b1111 then (Cond.ofNum (bits h 4 4)).map fun c => .it c (BitVec.ofNat 4 (bits h 0 4))
  else none

/-- The row of the table a 16-bit instruction matches, before the row's constraints are checked (R110 to R115). -/
def parse16 (h : Half) : Option Instr :=
  let imm8 := BitVec.ofNat 8 (bits h 0 8)
  let imm5 := BitVec.ofNat 5 (bits h 6 5)
  let lo0 := lowAt h 0
  let lo3 := lowAt h 3
  let lo8 := lowAt h 8
  if bits h 13 3 = 0b000 then parseShift16 h
  else if bits h 11 5 = 0b00100 then some (.movsImm8 lo8 imm8)
  else if bits h 11 5 = 0b00101 then some (.cmpImm8 lo8 imm8)
  else if bits h 11 5 = 0b00110 then some (.addsImm8 lo8 imm8)
  else if bits h 10 6 = 0b010000 then parseDp16 h
  else if bits h 10 6 = 0b010001 then parseSpecial16 h
  else if bits h 11 5 = 0b01001 then some (.ldrLit16 lo8 imm8)
  else if bits h 12 4 = 0b0101 then parseLoadStoreReg16 h
  else if bits h 11 5 = 0b01100 then some (.strImm16 lo0 lo3 imm5)
  else if bits h 11 5 = 0b01101 then some (.ldrImm16 lo0 lo3 imm5)
  else if bits h 11 5 = 0b10000 then some (.strhImm16 lo0 lo3 imm5)
  else if bits h 11 5 = 0b10001 then some (.ldrhImm16 lo0 lo3 imm5)
  else if bits h 11 5 = 0b10010 then some (.strSp16 lo8 imm8)
  else if bits h 11 5 = 0b10011 then some (.ldrSp16 lo8 imm8)
  else if bits h 12 4 = 0b1011 then parseMisc16 h
  else if bits h 11 5 = 0b11001 then some (.ldm16 lo8 imm8)
  else if bits h 12 4 = 0b1101 then (Cond.ofNum (bits h 8 4)).map fun c => .bCond16 c imm8
  else if bits h 11 5 = 0b11100 then some (.b16 (BitVec.ofNat 11 (bits h 0 11)))
  else none

/-! ## 32-bit formats -/

/-- T32.DPMI (R116): hw1 is `11110 i 0 op4 S Rn`, hw2 is `0 imm3 Rd imm8`. -/
def parseConst32 (h1 h2 : Half) : Option Instr :=
  let op := bits h1 5 4
  let sf := bit h1 4
  let rn := regAt h1 0
  let rd := regAt h2 8
  let imm12 := BitVec.ofNat 12 (bits h1 10 1 * 2048 + bits h2 12 3 * 256 + bits h2 0 8)
  let test := bits h1 4 1 = 1 ∧ bits h2 8 4 = 15
  if op = 0b0000 then (if test then some (.tstConst rn imm12) else some (.andConst sf rd rn imm12))
  else if op = 0b0001 then some (.bicConst sf rd rn imm12)
  else if op = 0b0010 then (if bits h1 0 4 = 15 then some (.movConst sf rd imm12) else some (.orrConst sf rd rn imm12))
  else if op = 0b0011 then (if bits h1 0 4 = 15 then some (.mvnConst sf rd imm12) else some (.ornConst sf rd rn imm12))
  else if op = 0b0100 then (if test then some (.teqConst rn imm12) else some (.eorConst sf rd rn imm12))
  else if op = 0b1000 then (if test then some (.cmnConst rn imm12) else some (.addConst sf rd rn imm12))
  else if op = 0b1101 then (if test then some (.cmpConst rn imm12) else none)
  else if op = 0b1110 then some (.rsbConst sf rd rn imm12)
  else none

/-- T32.DPSR with op4 0010 and Rn 1111: MOV, the shifts by an immediate, RRX (R116, R119). -/
def parseMoveShift32 (h1 h2 : Half) : Option Instr :=
  let sf := bit h1 4
  let rd := regAt h2 8
  let rm := regAt h2 0
  let n := bits h2 12 3 * 4 + bits h2 6 2
  let imm5 := BitVec.ofNat 5 n
  if bits h2 4 2 = 0b00 then (if n = 0 then some (.movReg32 sf rd rm) else some (.lslImm32 sf rd rm imm5))
  else if bits h2 4 2 = 0b01 then some (.lsrImm32 sf rd rm imm5)
  else if bits h2 4 2 = 0b10 then some (.asrImm32 sf rd rm imm5)
  else if n = 0 then some (.rrx sf rd rm)
  else some (.rorImm32 sf rd rm imm5)

/-- T32.DPSR (R116): hw1 is `1110101 op4 S Rn`, hw2 is `0 imm3 Rd imm2 type Rm`. -/
def parseShifted32 (h1 h2 : Half) : Option Instr :=
  let op := bits h1 5 4
  let sf := bit h1 4
  let rn := regAt h1 0
  let rd := regAt h2 8
  let rm := regAt h2 0
  let ty := ShiftType.ofNum (bits h2 4 2)
  let imm5 := BitVec.ofNat 5 (bits h2 12 3 * 4 + bits h2 6 2)
  let test := bits h1 4 1 = 1 ∧ bits h2 8 4 = 15
  if op = 0b0000 then (if test then some (.tstShift rn rm ty imm5) else some (.andShift sf rd rn rm ty imm5))
  else if op = 0b0001 then some (.bicShift sf rd rn rm ty imm5)
  else if op = 0b0010 then (if bits h1 0 4 = 15 then parseMoveShift32 h1 h2 else some (.orrShift sf rd rn rm ty imm5))
  else if op = 0b0011 then
    (if bits h1 0 4 = 15 then some (.mvnShift sf rd rm ty imm5) else some (.ornShift sf rd rn rm ty imm5))
  else if op = 0b0100 then (if test then some (.teqShift rn rm ty imm5) else some (.eorShift sf rd rn rm ty imm5))
  else if op = 0b1000 then (if test then some (.cmnShift rn rm ty imm5) else some (.addShift sf rd rn rm ty imm5))
  else if op = 0b1101 then (if test then some (.cmpShift rn rm ty imm5) else none)
  else if op = 0b1110 then some (.rsbShift sf rd rn rm ty imm5)
  else none

/-- T32.LDM (R116): LDM or POP.W under hw1 `1110100010 W 1 Rn`, LDMDB under `1110100100 W 1 Rn`; hw2 is
`P M 0 reglist13`. -/
def parseMultiple32 (h1 h2 : Half) : Option Instr :=
  let w := bit h1 5
  let rn := regAt h1 0
  let p := bit h2 15
  let m := bit h2 14
  let list := BitVec.ofNat 13 (bits h2 0 13)
  if bits h1 4 1 = 1 ∧ bits h2 13 1 = 0 then
    (if bits h1 6 3 = 0b010 then
      (if bits h1 5 1 = 1 ∧ bits h1 0 4 = 13 then some (.popW p m list) else some (.ldm32 w rn p m list))
    else if bits h1 6 3 = 0b100 then some (.ldmdb w rn p m list)
    else none)
  else none

/-- T32.SHREG (R116): hw1 is `11111010 0 type S Rm`, hw2 is `1111 Rd 0000 Rs`. -/
def parseShiftReg32 (h1 h2 : Half) : Option Instr :=
  let sf := bit h1 4
  let rm := regAt h1 0
  let rd := regAt h2 8
  let rs := regAt h2 0
  if bits h2 12 4 = 15 ∧ bits h2 4 4 = 0 then
    (if bits h1 5 2 = 0b00 then some (.lslReg32 sf rd rm rs)
    else if bits h1 5 2 = 0b01 then some (.lsrReg32 sf rd rm rs)
    else if bits h1 5 2 = 0b10 then some (.asrReg32 sf rd rm rs)
    else some (.rorReg32 sf rd rm rs))
  else none

/-- The special register a SYSm value names, by its place in Table 25 (R116). -/
inductive SysReg where
  | primask | faultmask | basepri | control | msp | psp
deriving DecidableEq, Repr

/-- SYSm values (R116): MSP 8, PSP 9, PRIMASK 16, BASEPRI 17, FAULTMASK 19, CONTROL 20. -/
def SysReg.ofNum (n : Nat) : Option SysReg :=
  if n = 8 then some .msp
  else if n = 9 then some .psp
  else if n = 16 then some .primask
  else if n = 17 then some .basepri
  else if n = 19 then some .faultmask
  else if n = 20 then some .control
  else none

/-- The SYSm value of a special register (R116). -/
def SysReg.num (r : SysReg) : Nat :=
  match r with
  | .primask => 16 | .faultmask => 19 | .basepri => 17 | .control => 20 | .msp => 8 | .psp => 9

/-- The Read function of a special register as an instruction (40_special_register_access R132). -/
def mrs (rd : Reg) (r : SysReg) : Instr :=
  match r with
  | .primask => .getPrimask rd | .faultmask => .getFaultmask rd | .basepri => .getBasepri rd
  | .control => .getControl rd | .msp => .getMsp rd | .psp => .getPsp rd

/-- The Write function of a special register as an instruction (40_special_register_access R132). -/
def msr (rn : Reg) (r : SysReg) : Instr :=
  match r with
  | .primask => .setPrimask rn | .faultmask => .setFaultmask rn | .basepri => .setBasepri rn
  | .control => .setControl rn | .msp => .setMsp rn | .psp => .setPsp rn

/-- Branches, MRS and MSR (R116): hw1[15:11] is 11110 and hw2[15] is 1. -/
def parseBranch32 (h1 h2 : Half) : Option Instr :=
  let s := bits h1 10 1
  let j1 := bits h2 13 1
  let j2 := bits h2 11 1
  let i1 := if j1 = s then 1 else 0
  let i2 := if j2 = s then 1 else 0
  let imm24 := BitVec.ofNat 24 (s * 8388608 + i1 * 4194304 + i2 * 2097152 + bits h1 0 10 * 2048 + bits h2 0 11)
  if bits h2 12 1 = 1 then (if bits h2 14 1 = 1 then some (.bl imm24) else some (.b32 imm24))
  else if bits h2 14 1 = 1 then none
  else if h1.toNat = 0xF3EF ∧ bits h2 12 4 = 0b1000 then (SysReg.ofNum (bits h2 0 8)).map (mrs (regAt h2 8))
  else if bits h1 4 12 = 0xF38 ∧ bits h2 8 8 = 0x88 then (SysReg.ofNum (bits h2 0 8)).map (msr (regAt h1 0))
  else if bits h1 7 3 = 0b111 then none
  else
    (Cond.ofNum (bits h1 6 4)).map fun c =>
      .bCond32 c (BitVec.ofNat 20 (s * 524288 + j2 * 262144 + j1 * 131072 + bits h1 0 6 * 2048 + bits h2 0 11))

/-- The `P U W` forms of T32.LS8 and the register form T32.LSR of one load or store mnemonic (R116). The constructors of the
mnemonic are given in the order negative offset, pre-indexed, post-indexed, unprivileged, register offset. -/
def parseIndexed32 (h2 : Half) (neg : Reg → BitVec 8 → Instr) (pre post : Reg → Bool → BitVec 8 → Instr)
    (unpriv : Reg → BitVec 8 → Instr) (reg : Reg → Reg → BitVec 2 → Instr) : Option Instr :=
  let rt := regAt h2 12
  let imm8 := BitVec.ofNat 8 (bits h2 0 8)
  let u := bit h2 9
  if bits h2 11 1 = 1 then
    (if bits h2 8 1 = 1 then (if bits h2 10 1 = 1 then some (pre rt u imm8) else some (post rt u imm8))
    else if bits h2 8 3 = 0b100 then some (neg rt imm8)
    else if bits h2 8 3 = 0b110 then some (unpriv rt imm8)
    else none)
  else if bits h2 6 6 = 0 then some (reg rt (regAt h2 0) (BitVec.ofNat 2 (bits h2 4 2)))
  else none

/-- Loads and stores (R116): hw1 is `1111100 sg x size L Rn` with x = 1 the 12-bit offset form or, with Rn = 1111 and L = 1,
the literal form. -/
def parseLoadStore32 (h1 h2 : Half) : Option Instr :=
  let rn := regAt h1 0
  let rt := regAt h2 12
  let imm12 := BitVec.ofNat 12 (bits h2 0 12)
  let u := bit h1 7
  let op := bits h1 4 3
  let sg := bits h1 8 1
  let long := bits h1 7 1 = 1
  if bits h1 4 1 = 1 ∧ bits h1 0 4 = 15 then
    (if sg = 0 ∧ op = 0b101 then some (.ldrLit32 u rt imm12)
    else if sg = 0 ∧ op = 0b011 then some (.ldrhLit32 u rt imm12)
    else if sg = 1 ∧ op = 0b011 then some (.ldrshLit32 u rt imm12)
    else none)
  else if sg = 0 ∧ op = 0b101 then
    (if long then some (.ldrImm12 rt rn imm12)
    else if h1.toNat = 0xF85D ∧ bits h2 0 12 = 0xB04 then some (.popWOne rt)
    else parseIndexed32 h2 (fun t k => .ldrNeg8 t rn k) (fun t u k => .ldrPre t rn u k) (fun t u k => .ldrPost t rn u k)
      (fun t k => .ldrt t rn k) (fun t m n => .ldrReg32 t rn m n))
  else if sg = 0 ∧ op = 0b011 then
    (if long then some (.ldrhImm12 rt rn imm12)
    else parseIndexed32 h2 (fun t k => .ldrhNeg8 t rn k) (fun t u k => .ldrhPre t rn u k)
      (fun t u k => .ldrhPost t rn u k) (fun t k => .ldrht t rn k) (fun t m n => .ldrhReg32 t rn m n))
  else if sg = 1 ∧ op = 0b011 then
    (if long then some (.ldrshImm12 rt rn imm12)
    else parseIndexed32 h2 (fun t k => .ldrshNeg8 t rn k) (fun t u k => .ldrshPre t rn u k)
      (fun t u k => .ldrshPost t rn u k) (fun t k => .ldrsht t rn k) (fun t m n => .ldrshReg32 t rn m n))
  else if sg = 0 ∧ op = 0b100 then
    (if long then some (.strImm12 rt rn imm12)
    else parseIndexed32 h2 (fun t k => .strNeg8 t rn k) (fun t u k => .strPre t rn u k) (fun t u k => .strPost t rn u k)
      (fun t k => .strt t rn k) (fun t m n => .strReg32 t rn m n))
  else if sg = 0 ∧ op = 0b010 then
    (if long then some (.strhImm12 rt rn imm12)
    else parseIndexed32 h2 (fun t k => .strhNeg8 t rn k) (fun t u k => .strhPre t rn u k)
      (fun t u k => .strhPost t rn u k) (fun t k => .strht t rn k) (fun t m n => .strhReg32 t rn m n))
  else none

/-- The row of the table a 32-bit instruction matches, before the row's constraints are checked (R116). -/
def parse32 (h1 h2 : Half) : Option Instr :=
  if bits h1 9 7 = 0b1110100 then parseMultiple32 h1 h2
  else if bits h1 9 7 = 0b1110101 then (if bits h2 15 1 = 0 then parseShifted32 h1 h2 else none)
  else if bits h1 11 5 = 0b11110 then
    (if bits h2 15 1 = 1 then parseBranch32 h1 h2
    else if bits h1 9 1 = 0 then parseConst32 h1 h2
    else none)
  else if bits h1 9 7 = 0b1111100 then parseLoadStore32 h1 h2
  else if bits h1 7 9 = 0b111110100 then parseShiftReg32 h1 h2
  else none

/-! ## The decoder -/

/-- A row's constraints hold, else the word is invalid (30_encoding R104). -/
def accepted (i : Option Instr) : Option Instr := i.filter Instr.wellFormed

/-- Decode a 16-bit instruction. -/
def decode16 (h : Half) : Option Instr := accepted (parse16 h)

/-- Decode a 32-bit instruction from its halfwords, `h1` at the lower address. -/
def decode32 (h1 h2 : Half) : Option Instr := accepted (parse32 h1 h2)

/-- Why bytes are no instruction. -/
inductive DecodeError where
  /-- The bytes end inside an instruction. -/
  | truncated
  /-- A 16-bit pattern that is no row's, or violates a row's constraint (R104). -/
  | invalid16 (h : Half)
  /-- A 32-bit pattern that is no row's, or violates a row's constraint (R104). -/
  | invalid32 (h1 h2 : Half)
deriving DecidableEq, Repr

/-- A halfword from its bytes, the low byte at the lower address (20_memory R68). -/
def halfOfBytes (lo hi : Byte) : Half := BitVec.ofNat 16 (lo.toNat + 256 * hi.toNat)

/-- The bytes of a halfword, the low byte first (20_memory R68). -/
def bytesOfHalf (h : Half) : List Byte := [BitVec.ofNat 8 h.toNat, BitVec.ofNat 8 (h.toNat / 256)]

/-- Decode the first instruction of a byte sequence and return what follows it; total on any bytes (30_encoding R93,
R104). -/
def decode (bs : List Byte) : Except DecodeError (Instr × List Byte) :=
  match bs with
  | b0 :: b1 :: rest =>
    let h1 := halfOfBytes b0 b1
    if is32 h1 then
      match rest with
      | b2 :: b3 :: rest' =>
        let h2 := halfOfBytes b2 b3
        match decode32 h1 h2 with
        | some i => .ok (i, rest')
        | none => .error (.invalid32 h1 h2)
      | _ => .error .truncated
    else
      match decode16 h1 with
      | some i => .ok (i, rest)
      | none => .error (.invalid16 h1)
  | _ => .error .truncated

/-! ## The encoder -/

/-- A halfword from its fields, the most significant first, each as (width, value). -/
def pack (fields : List (Nat × Nat)) : Half :=
  BitVec.ofNat 16 (fields.foldl (fun acc f => acc * 2 ^ f.1 + f.2) 0)

/-- `000 op imm5 Rm Rd` (R110). -/
def encShift16 (op imm5 : Nat) (rm rd : LowReg) : List Half :=
  [pack [(3, 0b000), (2, op), (5, imm5), (3, rm.num), (3, rd.num)]]

/-- `prefix Rd imm8` (R111, R114). -/
def encImm8 (op5 : Nat) (r : LowReg) (imm8 : BitVec 8) : List Half :=
  [pack [(5, op5), (3, r.num), (8, imm8.toNat)]]

/-- `010000 op4 Rm Rdn` (R112). -/
def encDp16 (op4 : Nat) (rdn rm : LowReg) : List Half :=
  [pack [(6, 0b010000), (4, op4), (3, rm.num), (3, rdn.num)]]

/-- `010001 op2 D Rm Rd` with the first register's number split as D : Rd (R113). -/
def encSpecial16 (op2 : Nat) (rd rm : Reg) : List Half :=
  [pack [(6, 0b010001), (2, op2), (1, rd.num / 8), (4, rm.num), (3, rd.num % 8)]]

/-- `prefix Rm Rn Rt` (R111, R114). -/
def encThree16 (op7 : Nat) (rm rn rt : LowReg) : List Half :=
  [pack [(7, op7), (3, rm.num), (3, rn.num), (3, rt.num)]]

/-- `prefix imm5 Rn Rt` (R114). -/
def encImm5 (op5 : Nat) (imm5 : BitVec 5) (rn rt : LowReg) : List Half :=
  [pack [(5, op5), (5, imm5.toNat), (3, rn.num), (3, rt.num)]]

/-- `1011 op 0 i 1 imm5 Rn` (R115). -/
def encCompareBranch (op : Nat) (imm6 : BitVec 6) (rn : LowReg) : List Half :=
  [pack [(4, 0b1011), (1, op), (1, 0), (1, imm6.toNat / 32), (1, 1), (5, imm6.toNat % 32), (3, rn.num)]]

/-- T32.DPMI (R116), register fields by number. -/
def encConst32 (op4 s rn rd : Nat) (imm12 : BitVec 12) : List Half :=
  [pack [(5, 0b11110), (1, imm12.toNat / 2048), (1, 0), (4, op4), (1, s), (4, rn)],
   pack [(1, 0), (3, imm12.toNat / 256 % 8), (4, rd), (8, imm12.toNat % 256)]]

/-- T32.DPSR (R116), register fields by number. -/
def encShifted32 (op4 s rn rd ty imm5 rm : Nat) : List Half :=
  [pack [(7, 0b1110101), (4, op4), (1, s), (4, rn)],
   pack [(1, 0), (3, imm5 / 4), (4, rd), (2, imm5 % 4), (2, ty), (4, rm)]]

/-- T32.SHREG (R116). -/
def encShiftReg32 (ty : Nat) (sf : Bool) (rm rd rs : Reg) : List Half :=
  [pack [(9, 0b111110100), (2, ty), (1, sf.toNat), (4, rm.num)],
   pack [(4, 0b1111), (4, rd.num), (4, 0), (4, rs.num)]]

/-- The J bit of a branch that makes the I bit `i`: `I = NOT(J XOR S)` (30_encoding R103). -/
def jBit (i s : Nat) : Nat := if i = s then 1 else 0

/-- T32.B and T32.BL (R116, R103). -/
def encBranch24 (link : Nat) (imm24 : BitVec 24) : List Half :=
  let s := imm24.toNat / 8388608
  [pack [(5, 0b11110), (1, s), (10, imm24.toNat / 2048 % 1024)],
   pack [(1, 1), (1, link), (1, jBit (imm24.toNat / 4194304 % 2) s), (1, 1),
     (1, jBit (imm24.toNat / 2097152 % 2) s), (11, imm24.toNat % 2048)]]

/-- T32.MRS (R116). -/
def encMrs (rd : Reg) (r : SysReg) : List Half :=
  [pack [(16, 0b1111001111101111)], pack [(4, 0b1000), (4, rd.num), (8, r.num)]]

/-- T32.MSR (R116). -/
def encMsr (rn : Reg) (r : SysReg) : List Half :=
  [pack [(12, 0b111100111000), (4, rn.num)], pack [(8, 0b10001000), (8, r.num)]]

/-- T32.LS12 (R116): `op` is sg, 1, size, L. -/
def encLong32 (sg size l : Nat) (rn rt : Reg) (imm12 : BitVec 12) : List Half :=
  [pack [(7, 0b1111100), (1, sg), (1, 1), (2, size), (1, l), (4, rn.num)], pack [(4, rt.num), (12, imm12.toNat)]]

/-- T32.LSLIT (R116). -/
def encLiteral32 (sg size : Nat) (u : Bool) (rt : Reg) (imm12 : BitVec 12) : List Half :=
  [pack [(7, 0b1111100), (1, sg), (1, u.toNat), (2, size), (1, 1), (4, 15)], pack [(4, rt.num), (12, imm12.toNat)]]

/-- T32.LS8 (R116). -/
def encIndexed32 (sg size l p u w : Nat) (rn rt : Reg) (imm8 : BitVec 8) : List Half :=
  [pack [(7, 0b1111100), (1, sg), (1, 0), (2, size), (1, l), (4, rn.num)],
   pack [(4, rt.num), (1, 1), (1, p), (1, u), (1, w), (8, imm8.toNat)]]

/-- T32.LSR (R116). -/
def encRegOffset32 (sg size l : Nat) (rn rt rm : Reg) (imm2 : BitVec 2) : List Half :=
  [pack [(7, 0b1111100), (1, sg), (1, 0), (2, size), (1, l), (4, rn.num)],
   pack [(4, rt.num), (6, 0), (2, imm2.toNat), (4, rm.num)]]

/-- T32.LDM (R116). -/
def encMultiple32 (op10 : Nat) (w : Nat) (rn : Nat) (p m : Bool) (list : BitVec 13) : List Half :=
  [pack [(10, op10), (1, w), (1, 1), (4, rn)], pack [(1, p.toNat), (1, m.toNat), (1, 0), (13, list.toNat)]]

/-- The halfwords of an instruction, the first at the lowest address (30_encoding R110 to R117). -/
def encode (i : Instr) : List Half :=
  match i with
  | .lslsImm16 rd rm imm5 => encShift16 0b00 imm5.toNat rm rd
  | .movsReg16 rd rm => encShift16 0b00 0 rm rd
  | .lsrsImm16 rd rm imm5 => encShift16 0b01 imm5.toNat rm rd
  | .asrsImm16 rd rm imm5 => encShift16 0b10 imm5.toNat rm rd
  | .addsReg16 rd rn rm => encThree16 0b0001100 rm rn rd
  | .addsImm3 rd rn imm3 => [pack [(7, 0b0001110), (3, imm3.toNat), (3, rn.num), (3, rd.num)]]
  | .movsImm8 rd imm8 => encImm8 0b00100 rd imm8
  | .cmpImm8 rn imm8 => encImm8 0b00101 rn imm8
  | .addsImm8 rdn imm8 => encImm8 0b00110 rdn imm8
  | .andsReg16 rdn rm => encDp16 0b0000 rdn rm
  | .eorsReg16 rdn rm => encDp16 0b0001 rdn rm
  | .lslsReg16 rdn rs => encDp16 0b0010 rdn rs
  | .lsrsReg16 rdn rs => encDp16 0b0011 rdn rs
  | .asrsReg16 rdn rs => encDp16 0b0100 rdn rs
  | .rorsReg16 rdn rs => encDp16 0b0111 rdn rs
  | .tstReg16 rn rm => encDp16 0b1000 rn rm
  | .rsbsZero16 rd rn => encDp16 0b1001 rd rn
  | .cmpReg16 rn rm => encDp16 0b1010 rn rm
  | .cmnReg16 rn rm => encDp16 0b1011 rn rm
  | .orrsReg16 rdn rm => encDp16 0b1100 rdn rm
  | .bicsReg16 rdn rm => encDp16 0b1110 rdn rm
  | .mvnsReg16 rd rm => encDp16 0b1111 rd rm
  | .addHigh rdn rm => encSpecial16 0b00 rdn rm
  | .cmpHigh rn rm => encSpecial16 0b01 rn rm
  | .movHigh rd rm => encSpecial16 0b10 rd rm
  | .bx rm => [pack [(9, 0b010001110), (4, rm.num), (3, 0)]]
  | .blx rm => [pack [(9, 0b010001111), (4, rm.num), (3, 0)]]
  | .ldrLit16 rt imm8 => encImm8 0b01001 rt imm8
  | .strReg16 rt rn rm => encThree16 0b0101000 rm rn rt
  | .strhReg16 rt rn rm => encThree16 0b0101001 rm rn rt
  | .ldrReg16 rt rn rm => encThree16 0b0101100 rm rn rt
  | .ldrhReg16 rt rn rm => encThree16 0b0101101 rm rn rt
  | .ldrshReg16 rt rn rm => encThree16 0b0101111 rm rn rt
  | .strImm16 rt rn imm5 => encImm5 0b01100 imm5 rn rt
  | .ldrImm16 rt rn imm5 => encImm5 0b01101 imm5 rn rt
  | .strhImm16 rt rn imm5 => encImm5 0b10000 imm5 rn rt
  | .ldrhImm16 rt rn imm5 => encImm5 0b10001 imm5 rn rt
  | .strSp16 rt imm8 => encImm8 0b10010 rt imm8
  | .ldrSp16 rt imm8 => encImm8 0b10011 rt imm8
  | .cbz rn imm6 => encCompareBranch 0 imm6 rn
  | .cbnz rn imm6 => encCompareBranch 1 imm6 rn
  | .pop16 p list => [pack [(7, 0b1011110), (1, p.toNat), (8, list.toNat)]]
  | .it firstcond mask => [pack [(8, 0b10111111), (4, firstcond.num), (4, mask.toNat)]]
  | .ldm16 rn list => encImm8 0b11001 rn list
  | .bCond16 c imm8 => [pack [(4, 0b1101), (4, c.num), (8, imm8.toNat)]]
  | .b16 imm11 => [pack [(5, 0b11100), (11, imm11.toNat)]]
  | .andConst sf rd rn imm12 => encConst32 0b0000 sf.toNat rn.num rd.num imm12
  | .bicConst sf rd rn imm12 => encConst32 0b0001 sf.toNat rn.num rd.num imm12
  | .orrConst sf rd rn imm12 => encConst32 0b0010 sf.toNat rn.num rd.num imm12
  | .ornConst sf rd rn imm12 => encConst32 0b0011 sf.toNat rn.num rd.num imm12
  | .eorConst sf rd rn imm12 => encConst32 0b0100 sf.toNat rn.num rd.num imm12
  | .addConst sf rd rn imm12 => encConst32 0b1000 sf.toNat rn.num rd.num imm12
  | .rsbConst sf rd rn imm12 => encConst32 0b1110 sf.toNat rn.num rd.num imm12
  | .tstConst rn imm12 => encConst32 0b0000 1 rn.num 15 imm12
  | .teqConst rn imm12 => encConst32 0b0100 1 rn.num 15 imm12
  | .cmnConst rn imm12 => encConst32 0b1000 1 rn.num 15 imm12
  | .cmpConst rn imm12 => encConst32 0b1101 1 rn.num 15 imm12
  | .movConst sf rd imm12 => encConst32 0b0010 sf.toNat 15 rd.num imm12
  | .mvnConst sf rd imm12 => encConst32 0b0011 sf.toNat 15 rd.num imm12
  | .andShift sf rd rn rm ty imm5 => encShifted32 0b0000 sf.toNat rn.num rd.num ty.num imm5.toNat rm.num
  | .bicShift sf rd rn rm ty imm5 => encShifted32 0b0001 sf.toNat rn.num rd.num ty.num imm5.toNat rm.num
  | .orrShift sf rd rn rm ty imm5 => encShifted32 0b0010 sf.toNat rn.num rd.num ty.num imm5.toNat rm.num
  | .ornShift sf rd rn rm ty imm5 => encShifted32 0b0011 sf.toNat rn.num rd.num ty.num imm5.toNat rm.num
  | .eorShift sf rd rn rm ty imm5 => encShifted32 0b0100 sf.toNat rn.num rd.num ty.num imm5.toNat rm.num
  | .addShift sf rd rn rm ty imm5 => encShifted32 0b1000 sf.toNat rn.num rd.num ty.num imm5.toNat rm.num
  | .rsbShift sf rd rn rm ty imm5 => encShifted32 0b1110 sf.toNat rn.num rd.num ty.num imm5.toNat rm.num
  | .tstShift rn rm ty imm5 => encShifted32 0b0000 1 rn.num 15 ty.num imm5.toNat rm.num
  | .teqShift rn rm ty imm5 => encShifted32 0b0100 1 rn.num 15 ty.num imm5.toNat rm.num
  | .cmnShift rn rm ty imm5 => encShifted32 0b1000 1 rn.num 15 ty.num imm5.toNat rm.num
  | .cmpShift rn rm ty imm5 => encShifted32 0b1101 1 rn.num 15 ty.num imm5.toNat rm.num
  | .movReg32 sf rd rm => encShifted32 0b0010 sf.toNat 15 rd.num 0b00 0 rm.num
  | .lslImm32 sf rd rm imm5 => encShifted32 0b0010 sf.toNat 15 rd.num 0b00 imm5.toNat rm.num
  | .lsrImm32 sf rd rm imm5 => encShifted32 0b0010 sf.toNat 15 rd.num 0b01 imm5.toNat rm.num
  | .asrImm32 sf rd rm imm5 => encShifted32 0b0010 sf.toNat 15 rd.num 0b10 imm5.toNat rm.num
  | .rorImm32 sf rd rm imm5 => encShifted32 0b0010 sf.toNat 15 rd.num 0b11 imm5.toNat rm.num
  | .rrx sf rd rm => encShifted32 0b0010 sf.toNat 15 rd.num 0b11 0 rm.num
  | .mvnShift sf rd rm ty imm5 => encShifted32 0b0011 sf.toNat 15 rd.num ty.num imm5.toNat rm.num
  | .lslReg32 sf rd rm rs => encShiftReg32 0b00 sf rm rd rs
  | .lsrReg32 sf rd rm rs => encShiftReg32 0b01 sf rm rd rs
  | .asrReg32 sf rd rm rs => encShiftReg32 0b10 sf rm rd rs
  | .rorReg32 sf rd rm rs => encShiftReg32 0b11 sf rm rd rs
  | .bCond32 c imm20 =>
    [pack [(5, 0b11110), (1, imm20.toNat / 524288), (4, c.num), (6, imm20.toNat / 2048 % 64)],
     pack [(2, 0b10), (1, imm20.toNat / 131072 % 2), (1, 0), (1, imm20.toNat / 262144 % 2), (11, imm20.toNat % 2048)]]
  | .b32 imm24 => encBranch24 0 imm24
  | .bl imm24 => encBranch24 1 imm24
  | .getPrimask rd => encMrs rd .primask
  | .setPrimask rn => encMsr rn .primask
  | .getFaultmask rd => encMrs rd .faultmask
  | .setFaultmask rn => encMsr rn .faultmask
  | .getBasepri rd => encMrs rd .basepri
  | .setBasepri rn => encMsr rn .basepri
  | .getControl rd => encMrs rd .control
  | .setControl rn => encMsr rn .control
  | .getMsp rd => encMrs rd .msp
  | .setMsp rn => encMsr rn .msp
  | .getPsp rd => encMrs rd .psp
  | .setPsp rn => encMsr rn .psp
  | .ldrImm12 rt rn imm12 => encLong32 0 0b10 1 rn rt imm12
  | .ldrNeg8 rt rn imm8 => encIndexed32 0 0b10 1 1 0 0 rn rt imm8
  | .ldrPre rt rn u imm8 => encIndexed32 0 0b10 1 1 u.toNat 1 rn rt imm8
  | .ldrPost rt rn u imm8 => encIndexed32 0 0b10 1 0 u.toNat 1 rn rt imm8
  | .ldrt rt rn imm8 => encIndexed32 0 0b10 1 1 1 0 rn rt imm8
  | .ldrReg32 rt rn rm imm2 => encRegOffset32 0 0b10 1 rn rt rm imm2
  | .ldrLit32 u rt imm12 => encLiteral32 0 0b10 u rt imm12
  | .ldrhImm12 rt rn imm12 => encLong32 0 0b01 1 rn rt imm12
  | .ldrhNeg8 rt rn imm8 => encIndexed32 0 0b01 1 1 0 0 rn rt imm8
  | .ldrhPre rt rn u imm8 => encIndexed32 0 0b01 1 1 u.toNat 1 rn rt imm8
  | .ldrhPost rt rn u imm8 => encIndexed32 0 0b01 1 0 u.toNat 1 rn rt imm8
  | .ldrht rt rn imm8 => encIndexed32 0 0b01 1 1 1 0 rn rt imm8
  | .ldrhReg32 rt rn rm imm2 => encRegOffset32 0 0b01 1 rn rt rm imm2
  | .ldrhLit32 u rt imm12 => encLiteral32 0 0b01 u rt imm12
  | .ldrshImm12 rt rn imm12 => encLong32 1 0b01 1 rn rt imm12
  | .ldrshNeg8 rt rn imm8 => encIndexed32 1 0b01 1 1 0 0 rn rt imm8
  | .ldrshPre rt rn u imm8 => encIndexed32 1 0b01 1 1 u.toNat 1 rn rt imm8
  | .ldrshPost rt rn u imm8 => encIndexed32 1 0b01 1 0 u.toNat 1 rn rt imm8
  | .ldrsht rt rn imm8 => encIndexed32 1 0b01 1 1 1 0 rn rt imm8
  | .ldrshReg32 rt rn rm imm2 => encRegOffset32 1 0b01 1 rn rt rm imm2
  | .ldrshLit32 u rt imm12 => encLiteral32 1 0b01 u rt imm12
  | .strImm12 rt rn imm12 => encLong32 0 0b10 0 rn rt imm12
  | .strNeg8 rt rn imm8 => encIndexed32 0 0b10 0 1 0 0 rn rt imm8
  | .strPre rt rn u imm8 => encIndexed32 0 0b10 0 1 u.toNat 1 rn rt imm8
  | .strPost rt rn u imm8 => encIndexed32 0 0b10 0 0 u.toNat 1 rn rt imm8
  | .strt rt rn imm8 => encIndexed32 0 0b10 0 1 1 0 rn rt imm8
  | .strReg32 rt rn rm imm2 => encRegOffset32 0 0b10 0 rn rt rm imm2
  | .strhImm12 rt rn imm12 => encLong32 0 0b01 0 rn rt imm12
  | .strhNeg8 rt rn imm8 => encIndexed32 0 0b01 0 1 0 0 rn rt imm8
  | .strhPre rt rn u imm8 => encIndexed32 0 0b01 0 1 u.toNat 1 rn rt imm8
  | .strhPost rt rn u imm8 => encIndexed32 0 0b01 0 0 u.toNat 1 rn rt imm8
  | .strht rt rn imm8 => encIndexed32 0 0b01 0 1 1 0 rn rt imm8
  | .strhReg32 rt rn rm imm2 => encRegOffset32 0 0b01 0 rn rt rm imm2
  | .ldm32 w rn p m list => encMultiple32 0b1110100010 w.toNat rn.num p m list
  | .ldmdb w rn p m list => encMultiple32 0b1110100100 w.toNat rn.num p m list
  | .popW p m list => encMultiple32 0b1110100010 1 13 p m list
  | .popWOne rt => [pack [(16, 0b1111100001011101)], pack [(4, rt.num), (12, 0b101100000100)]]

/-- The bytes of an instruction in memory order: each halfword little-endian (20_memory R68). -/
def encodeBytes (i : Instr) : List Byte := (encode i).flatMap bytesOfHalf

/-! ## The table's words -/

/-- The bytes, lowest address first, of an instruction whose bits spec/opcode_table.json numbers as the word `w`: a 16-bit
row's word is its halfword, a 32-bit row's word has hw1 in bits[31:16] and hw2 in bits[15:0] (30_encoding section 7;
notes/assumptions/14.md). Four bytes, the longest instruction: after a 16-bit instruction two zero bytes. -/
def tableBytes (nbits w : Nat) : List Byte :=
  if 16 < nbits then bytesOfHalf (BitVec.ofNat 16 (w / 65536)) ++ bytesOfHalf (BitVec.ofNat 16 w)
  else bytesOfHalf (BitVec.ofNat 16 w) ++ bytesOfHalf 0#16

/-- The instruction the decoder reads from a word of the table. -/
def decodeTableWord (nbits w : Nat) : Option Instr :=
  match decode (tableBytes nbits w) with
  | .ok (i, _) => some i
  | .error _ => none

end Sys2Proof
end

