-- ==== Sys2Proof/Machine/Memory.lean ====
section
/-! DEFINITION. Memory as plain data: a list of address and byte pairs in one canonical form, over the whole 32-bit address
space (20_memory R60), little-endian (20_memory R68). What an address that the list does not name reads as is
`Memory.unlisted`. Which addresses exist and what they admit is `Config.admits`; the checks of an access are in
Machine/Ops.lean. -/

namespace Sys2Proof.Machine

/-- Memory: address and byte pairs, addresses strictly rising, no byte equal to `Memory.unlisted`. -/
abbrev Memory := List Host.Cell

/-- What an address the list does not name reads as. DESIGN CHOICE, unsafe: the spec gives memory no reset contents
(10_state R41, R42); the model takes 0 (notes/assumptions/3.md). -/
def Memory.unlisted : Byte := 0#8

/-- Read one byte. -/
def Memory.read (m : Memory) (a : Nat) : Byte :=
  match m with
  | [] => Memory.unlisted
  | (k, b) :: rest => if a = k then b else Memory.read rest a

/-- Write one byte, keeping the canonical form. -/
def Memory.write (m : Memory) (a : Nat) (v : Byte) : Memory :=
  match m with
  | [] => if v = Memory.unlisted then [] else [(a, v)]
  | (k, b) :: rest =>
    if a < k then (if v = Memory.unlisted then (k, b) :: rest else (a, v) :: (k, b) :: rest)
    else if a = k then (if v = Memory.unlisted then rest else (a, v) :: rest)
    else (k, b) :: Memory.write rest a v

/-- Every address of the list lies at or above `low`, they rise strictly and stay below 2^32, and no byte is the unlisted
one. -/
def Memory.wfFrom (low : Nat) (m : Memory) : Bool :=
  match m with
  | [] => true
  | (k, b) :: rest =>
    decide (low ≤ k) && decide (k < addressCount) && decide (b ≠ Memory.unlisted) && Memory.wfFrom (k + 1) rest

/-- The canonical form. -/
def Memory.wf (m : Memory) : Bool := Memory.wfFrom 0 m

/-- The bytes at `a`, `a + 1`, ..., `a + n - 1`, the lowest address first. -/
def Memory.readBytes (m : Memory) (a : Nat) (n : Nat) : List Byte :=
  match n with
  | 0 => []
  | k + 1 => m.read a :: Memory.readBytes m (a + 1) k

/-- Write bytes at `a`, `a + 1`, ... -/
def Memory.writeBytes (m : Memory) (a : Nat) (bs : List Byte) : Memory :=
  match bs with
  | [] => m
  | b :: rest => Memory.writeBytes (m.write a b) (a + 1) rest

/-- The number whose little-endian bytes are given: the first byte is the least significant (20_memory R68, R70). -/
def leNat (bs : List Byte) : Nat :=
  match bs with
  | [] => 0
  | b :: rest => b.toNat + 256 * leNat rest

/-- The low `n` bytes of a number, the least significant first (20_memory R68, R70). -/
def leBytes (n : Nat) (v : Nat) : List Byte :=
  match n with
  | 0 => []
  | k + 1 => BitVec.ofNat 8 v :: leBytes k (v / 256)

/-- The value of the `n` bytes at `a`, zero-extended to a word (20_memory R70). -/
def Memory.readLe (m : Memory) (a n : Nat) : Word := BitVec.ofNat 32 (leNat (m.readBytes a n))

/-- Store the low `n` bytes of `v` at `a` (20_memory R70). -/
def Memory.writeLe (m : Memory) (a n : Nat) (v : Word) : Memory := m.writeBytes a (leBytes n v.toNat)

end Sys2Proof.Machine
end

