-- ==== Sys2Proof/Machine/State.lean ====
section
/-! DEFINITION. The machine's state (10_state), why a step stops (00_scope R10, 60_exceptions R270), and the state after
reset (10_state R41, 70_reset_and_hazards R300, R301). The model has no mode, exception number, pending state, floating-point
register or exclusive monitor: 10_state R40 and 60_exceptions R278 say that it has none of them. -/

namespace Sys2Proof.Machine

/-- The general registers x[0] to x[12] (10_state R20). -/
structure Gprs where
  r0 : Word
  r1 : Word
  r2 : Word
  r3 : Word
  r4 : Word
  r5 : Word
  r6 : Word
  r7 : Word
  r8 : Word
  r9 : Word
  r10 : Word
  r11 : Word
  r12 : Word
deriving DecidableEq, Repr

/-- The condition flags of the APSR (10_state R27, R28). -/
structure Flags where
  n : Bool
  z : Bool
  c : Bool
  v : Bool
deriving DecidableEq, Repr

/-- The machine. -/
structure State where
  /-- R0 to R12 (R20). -/
  gprs : Gprs
  /-- The main stack pointer (R21, R36); bits[1:0] read as zero and ignore writes. -/
  msp : Word
  /-- The process stack pointer (R21, R37); bits[1:0] read as zero and ignore writes. -/
  psp : Word
  /-- The link register (R22). -/
  lr : Word
  /-- The address of the instruction being executed (R23). -/
  pc : Word
  /-- The condition flags N, Z, C, V (R27, R28). -/
  flags : Flags
  /-- PRIMASK (R32): bit[0]; the other bits read as zero and ignore writes. -/
  primask : Word
  /-- FAULTMASK (R33): bit[0]; the other bits read as zero and ignore writes. -/
  faultmask : Word
  /-- BASEPRI (R34): the top `prioBits` bits of bits[7:0]; the other bits read as zero and ignore writes. -/
  basepri : Word
  /-- CONTROL (R35): nPRIV bit[0], SPSEL bit[1], FPCA bit[2] when `hasFP`; the other bits read as zero. -/
  control : Word
  /-- UNALIGN_TRP of the Configuration and Control register (R38; 20_memory R65). -/
  unalignTrp : Bool
  /-- The conditions of the instructions still to come in the current IT block (R39). -/
  itstate : List Cond
  /-- Memory (20_memory R60, R72). -/
  mem : Memory
  /-- The launch parameters (00_scope R6): no instruction changes them. -/
  cfg : Config
deriving DecidableEq, Repr

/-- What a UsageFault reports in the model (60_exceptions R270, R271). -/
inductive UsageCause where
  /-- An unaligned access the rules do not admit, at address `a` (20_memory R64 to R66). -/
  | unaligned (a : Word)
  /-- Bit[0] = 0 in an address written to the PC (10_state R25; 44_branch_and_conditional R254). -/
  | invstate
deriving DecidableEq, Repr

/-- A step that stops with an exception, or stuck on memory that does not exist. Neither is a next state (00_scope R10). -/
inductive Fault where
  /-- `raise UsageFault(cause)` at instruction address `pc`: the fault outcome of 60_exceptions R271. Raised by the
  alignment check of the loads and stores and by BX, BLX, LDR, LDM and POP writing the PC. Safe: nothing can be proved of
  a run that faults. -/
  | usageFault (cause : UsageCause) (pc : Word)
  /-- `stuck`: a data access at address `a` that the launch memory does not admit (20_memory R70, R72). Raised by every
  load and store. Safe: the hardware takes a fault there or reaches a device the spec does not describe. -/
  | stuck (acc : Access) (a : Nat)
deriving DecidableEq, Repr

/-- A step to which the spec gives no meaning (00_scope R10). -/
inductive Refusal where
  /-- An instruction that has no meaning in exec. No arm raises it. Safe. -/
  | notModelled (mnemonic : String)
  /-- The bytes at the PC are no instruction (30_encoding R104). Raised by step. Safe. -/
  | invalidEncoding (why : DecodeError)
  /-- The launch memory does not admit the fetch at `a` (20_memory R69, R72). Raised by step. Safe. -/
  | fetchNotAdmitted (a : Nat)
  /-- An access, fetch or sequential PC advance that would cross address 0xFFFFFFFF (10_state R26; 20_memory R67;
  92_eei_decisions D4). Raised by step, by every instruction that advances the PC and by every load and store. Safe. -/
  | addressTop
  /-- A store to an address inside the program text (20_memory R77). Raised by the stores. Safe. -/
  | textStore (a : Nat)
  /-- A term that is no instruction: a restricted register or operand (41_operand2_data_processing R151;
  44_branch_and_conditional R255; 93_implementation_defined U6). The decoder yields no such term. Raised by every
  instruction that has a restriction. Safe. -/
  | form
  /-- An instruction in a place of an IT block where it may not stand (44_branch_and_conditional R244). Raised by IT, the
  branches, MOVS Rd, Rm in its 16-bit form and the loads of the PC. Safe. -/
  | itPlacement
  /-- A branch to an instruction inside an IT block, at address `target` (44_branch_and_conditional R244;
  93_implementation_defined U6 (g)). Raised by B, B<cond>, BL, BX, BLX, CBZ, CBNZ and by LDR, LDM, LDMDB and POP writing the
  PC. Safe: the architecture calls such a branch unpredictable. -/
  | branchIntoBlock (target : Word)
  /-- `LDR PC` from an address that is not word-aligned (43_load_store R226; U6 (d)). Raised by LDR. Safe. -/
  | unalignedPcLoad
deriving DecidableEq, Repr

/-- R0 to R12 at reset. DESIGN CHOICE, unsafe: the spec gives none (10_state R41, "unknown"); the model takes 0
(notes/assumptions/1.md). -/
def Gprs.reset : Gprs :=
  { r0 := 0#32, r1 := 0#32, r2 := 0#32, r3 := 0#32, r4 := 0#32, r5 := 0#32, r6 := 0#32, r7 := 0#32, r8 := 0#32,
    r9 := 0#32, r10 := 0#32, r11 := 0#32, r12 := 0#32 }

/-- The initial main stack pointer: the word at address 0 with bits[1:0] dropped (10_state R36, R41;
70_reset_and_hazards R301). -/
def resetMsp (m : Memory) : Word := m.readLe 0 4 &&& 0xFFFFFFFC#32

/-- The initial PC: the word at address 4 with bit[0] removed (10_state R41; 70_reset_and_hazards R301). The spec says that
bit[0] of that word must be 1 and not what follows when it is 0. DESIGN CHOICE, unsafe: the model does not check the bit, drops
it in both cases and raises no fault (notes/assumptions/29.md). At `State.reset` memory is empty, so the word is 0, its bit[0]
is 0 and the PC is 0. -/
def resetPc (m : Memory) : Word := m.readLe 4 4 &&& 0xFFFFFFFE#32

/-- The machine right after reset (10_state R41; 70_reset_and_hazards R300, R301), with the parameters of
`Config.reset`. Its reset vector is a word of the empty memory, whose bit[0] is 0: see `resetPc`. R0 to R12, PSP and the flags
are unknown in the spec: DESIGN CHOICE 0, unsafe (notes/assumptions/1.md). Memory has nothing listed (notes/assumptions/3.md). -/
def State.reset : State :=
  { gprs := Gprs.reset
    msp := resetMsp []
    psp := 0#32
    lr := 0xFFFFFFFF#32
    pc := resetPc []
    flags := { n := false, z := false, c := false, v := false }
    primask := 0#32
    faultmask := 0#32
    basepri := 0#32
    control := 0#32
    unalignTrp := false
    itstate := []
    mem := []
    cfg := Config.reset }

end Sys2Proof.Machine
end

