-- ==== Sys2Proof/Machine/Flags.lean ====
section
/-! DEFINITION. The flag laws (41_operand2_data_processing R155 to R160) and the condition codes
(44_branch_and_conditional R241). -/

namespace Sys2Proof.Machine

/-- A sum or difference with its carry and overflow. -/
structure ArithResult where
  value : Word
  carry : Bool
  overflow : Bool
deriving DecidableEq, Repr

/-- `AddWithCarry(a, b, cin)` (R155): the sums are over the unbounded integers. -/
def addWithCarry (a b : Word) (cin : Bool) : ArithResult :=
  let usum := a.toNat + b.toNat + cin.toNat
  let ssum := a.toInt + b.toInt + cin.toNat
  let r : Word := BitVec.ofNat 32 usum
  { value := r, carry := decide (addressCount ≤ usum), overflow := decide (r.toInt ≠ ssum) }

/-- `Sub(a, b)` (R156): C is "not borrow". -/
def sub (a b : Word) : ArithResult :=
  let r : Word := BitVec.ofInt 32 ((a.toNat : Int) - b.toNat)
  { value := r, carry := decide (b.toNat ≤ a.toNat), overflow := decide (r.toInt ≠ a.toInt - b.toInt) }

/-- N of a result (R157). -/
def negative (r : Word) : Bool := r.getLsbD 31

/-- Z of a result (R157). -/
def zero (r : Word) : Bool := decide (r = 0#32)

/-- The flags a flag-setting logical, move or shift instruction leaves: N and Z of the result, C the carry of the second
operand or of the shift, V unchanged (R159, R160; 42_shift_operations R197). -/
def Flags.logical (f : Flags) (r : Word) (carry : Bool) : Flags :=
  { n := negative r, z := zero r, c := carry, v := f.v }

/-- The flags a flag-setting addition or subtraction leaves: all four (R155, R156, R157, R160). -/
def Flags.arith (a : ArithResult) : Flags :=
  { n := negative a.value, z := zero a.value, c := a.carry, v := a.overflow }

end Sys2Proof.Machine

namespace Sys2Proof

/-- `CondHolds(c, N, Z, C, V)` (R241, Table 26 with the LE row of 90_conflicts C6). -/
def Cond.holds (c : Cond) (f : Machine.Flags) : Bool :=
  match c with
  | .eq => f.z
  | .ne => !f.z
  | .cs => f.c
  | .cc => !f.c
  | .mi => f.n
  | .pl => !f.n
  | .vs => f.v
  | .vc => !f.v
  | .hi => f.c && !f.z
  | .ls => !f.c || f.z
  | .ge => f.n == f.v
  | .lt => f.n != f.v
  | .gt => !f.z && f.n == f.v
  | .le => f.z || f.n != f.v
  | .al => true

/-- The complementary condition, which an E of an IT block gives (R241, R244). AL has none: an IT with AL has no E. -/
def Cond.inverse (c : Cond) : Cond :=
  match c with
  | .eq => .ne | .ne => .eq | .cs => .cc | .cc => .cs | .mi => .pl | .pl => .mi | .vs => .vc | .vc => .vs
  | .hi => .ls | .ls => .hi | .ge => .lt | .lt => .ge | .gt => .le | .le => .gt | .al => .al

end Sys2Proof
end

