-- ==== Sys2Proof/Machine/Operands.lean ====
section
/-! DEFINITION. Operands: the five shift operations (42_shift_operations R191 to R196), the flexible second operand
(41_operand2_data_processing R152 to R154; 30_encoding R97, R101, R102), the PC values (10_state R24), registers, addressing
forms (43_load_store R211), register lists, branch offsets (30_encoding R103) and the conditions of an IT block (R117). -/

namespace Sys2Proof.Machine

/-! ## Shifts -/

/-- The shift operations of 42_shift_operations. -/
inductive ShiftOp where
  | asr | lsr | lsl | ror | rrx
deriving DecidableEq, Repr

/-- `ASR_C(x, n)`, n ≥ 1 (R191). -/
def asrC (x : Word) (n : Nat) : Word × Bool :=
  if n ≤ 31 then (x.sshiftRight n, x.getLsbD (n - 1))
  else (if x.getLsbD 31 then 0xFFFFFFFF#32 else 0#32, x.getLsbD 31)

/-- `LSR_C(x, n)`, n ≥ 1 (R192). -/
def lsrC (x : Word) (n : Nat) : Word × Bool :=
  if n ≤ 31 then (x >>> n, x.getLsbD (n - 1))
  else if n = 32 then (0#32, x.getLsbD 31)
  else (0#32, false)

/-- `LSL_C(x, n)`, n ≥ 1 (R193). -/
def lslC (x : Word) (n : Nat) : Word × Bool :=
  if n ≤ 31 then (x <<< n, x.getLsbD (32 - n))
  else if n = 32 then (0#32, x.getLsbD 0)
  else (0#32, false)

/-- `ROR_C(x, n)`, n ≥ 1, by the closed form of R194: a length above 32 is the length less 32. -/
def rorC (x : Word) (n : Nat) : Word × Bool :=
  let m := (n - 1) % 32 + 1
  if m ≤ 31 then (x.rotateRight m, x.getLsbD (m - 1)) else (x, x.getLsbD 31)

/-- `RRX_C(x, carry_in)` (R195). -/
def rrxC (x : Word) (cin : Bool) : Word × Bool :=
  ((x >>> 1) ||| (if cin then 0x80000000#32 else 0#32), x.getLsbD 0)

/-- `Shift_C(x, type, n, carry_in)` (R196): the result and the carry output. -/
def shiftC (x : Word) (op : ShiftOp) (n : Nat) (cin : Bool) : Word × Bool :=
  match op with
  | .rrx => rrxC x cin
  | .asr => if n = 0 then (x, cin) else asrC x n
  | .lsr => if n = 0 then (x, cin) else lsrC x n
  | .lsl => if n = 0 then (x, cin) else lslC x n
  | .ror => if n = 0 then (x, cin) else rorC x n

/-- The shift a type and length field name (30_encoding R102). -/
def decodeShift (ty : ShiftType) (imm5 : BitVec 5) : ShiftOp × Nat :=
  match ty with
  | .lsl => (.lsl, imm5.toNat)
  | .lsr => (.lsr, if imm5 = 0#5 then 32 else imm5.toNat)
  | .asr => (.asr, if imm5 = 0#5 then 32 else imm5.toNat)
  | .ror => if imm5 = 0#5 then (.rrx, 1) else (.ror, imm5.toNat)

/-! ## The Operand2 constant -/

/-- `c = v << k` for some v in 0..255 and k in 0..24: class SHIFTED of 30_encoding R97. -/
def isShiftedByte (c : Word) : Bool :=
  (List.range 25).any fun k => decide (c.toNat / 2 ^ k ≤ 255) && decide (c.toNat % 2 ^ k = 0)

/-- `IsOp2Const(c)` (30_encoding R97). -/
def isOp2Const (c : Word) : Bool :=
  let b0 := c.toNat % 256
  let b1 := c.toNat / 256 % 256
  isShiftedByte c || decide (c.toNat = b0 * 0x00010001) || decide (c.toNat = b1 * 0x01000100) ||
    decide (c.toNat = b0 * 0x01010101)

/-- `Op2Const(c, carry_in)` (41_operand2_data_processing R153): the value and the carry. -/
def op2Const (c : Word) (cin : Bool) : Word × Bool :=
  (c, if decide (255 < c.toNat) && isShiftedByte c then c.getLsbD 31 else cin)

/-- `ThumbExpandImm_C(imm12, carry_in)` (30_encoding R101): the value and the carry. -/
def thumbExpandImmC (imm12 : BitVec 12) (cin : Bool) : Word × Bool :=
  let b := imm12.toNat % 256
  if imm12.toNat / 1024 = 0 then
    (BitVec.ofNat 32
      (if imm12.toNat / 256 = 0 then b
      else if imm12.toNat / 256 = 1 then b * 0x00010001
      else if imm12.toNat / 256 = 2 then b * 0x01000100
      else b * 0x01010101), cin)
  else
    let r := (BitVec.ofNat 32 (128 + imm12.toNat % 128)).rotateRight (imm12.toNat / 128)
    (r, r.getLsbD 31)

/-- The Operand2 constant of a 32-bit encoding: the constant the field names (30_encoding R101), with the carry of
41_operand2_data_processing R153. -/
def op2OfField (imm12 : BitVec 12) (cin : Bool) : Word × Bool := op2Const (thumbExpandImmC imm12 cin).1 cin

/-! ## The PC values -/

/-- `PCbranch(A)` (10_state R24; 44_branch_and_conditional R253). -/
def pcBranch (a : Word) : Word := a + 4#32

/-- `PCalign(A)` (10_state R24; 43_load_store R212). -/
def pcAlign (a : Word) : Word := (a + 4#32) &&& 0xFFFFFFFD#32

/-! ## Registers -/

/-- SP is the PSP: Thread mode, in which the model always is, with CONTROL.SPSEL = 1 (10_state R21; 60_exceptions R278). -/
def State.usesPsp (s : State) : Bool := s.control.getLsbD 1

/-- Bits[1:0] of a stack pointer read as zero and ignore writes (10_state R21). -/
def stackAligned (v : Word) : Word := v &&& 0xFFFFFFFC#32

/-- The stack pointer an instruction names as SP (10_state R21). -/
def State.sp (s : State) : Word := stackAligned (if s.usesPsp then s.psp else s.msp)

/-- Write the stack pointer an instruction names as SP (10_state R21). -/
def State.setSp (s : State) (v : Word) : State :=
  if s.usesPsp then { s with psp := stackAligned v } else { s with msp := stackAligned v }

/-- Read a core register (00_scope R9). The PC reads as `PCbranch`; no admitted form reads it as an operand
(41_operand2_data_processing R151). -/
def State.reg (s : State) (r : Reg) : Word :=
  match r with
  | .r0 => s.gprs.r0 | .r1 => s.gprs.r1 | .r2 => s.gprs.r2 | .r3 => s.gprs.r3 | .r4 => s.gprs.r4
  | .r5 => s.gprs.r5 | .r6 => s.gprs.r6 | .r7 => s.gprs.r7 | .r8 => s.gprs.r8 | .r9 => s.gprs.r9
  | .r10 => s.gprs.r10 | .r11 => s.gprs.r11 | .r12 => s.gprs.r12
  | .sp => s.sp
  | .lr => s.lr
  | .pc => pcBranch s.pc

/-- Write a core register (00_scope R9). The PC is written by the branch operations of Machine/Ops.lean and never here: no
admitted form reaches that arm, which leaves the state as it is. -/
def State.setReg (s : State) (r : Reg) (v : Word) : State :=
  match r with
  | .r0 => { s with gprs := { s.gprs with r0 := v } }
  | .r1 => { s with gprs := { s.gprs with r1 := v } }
  | .r2 => { s with gprs := { s.gprs with r2 := v } }
  | .r3 => { s with gprs := { s.gprs with r3 := v } }
  | .r4 => { s with gprs := { s.gprs with r4 := v } }
  | .r5 => { s with gprs := { s.gprs with r5 := v } }
  | .r6 => { s with gprs := { s.gprs with r6 := v } }
  | .r7 => { s with gprs := { s.gprs with r7 := v } }
  | .r8 => { s with gprs := { s.gprs with r8 := v } }
  | .r9 => { s with gprs := { s.gprs with r9 := v } }
  | .r10 => { s with gprs := { s.gprs with r10 := v } }
  | .r11 => { s with gprs := { s.gprs with r11 := v } }
  | .r12 => { s with gprs := { s.gprs with r12 := v } }
  | .sp => s.setSp v
  | .lr => { s with lr := v }
  | .pc => s

/-- Write several registers, in the order given. -/
def State.setRegs (s : State) (l : List (Reg × Word)) : State :=
  match l with
  | [] => s
  | (r, v) :: rest => (s.setReg r v).setRegs rest

/-- Operand2 as a register with optional shift: `Op2Reg(m, shift, carry_in)` (41_operand2_data_processing R154). -/
def op2Reg (s : State) (rm : Reg) (ty : ShiftType) (imm5 : BitVec 5) : Word × Bool :=
  shiftC (s.reg rm) (decodeShift ty imm5).1 (decodeShift ty imm5).2 s.flags.c

/-- Operand2 as a register without shift (41_operand2_data_processing R154). -/
def op2Plain (s : State) (rm : Reg) : Word × Bool := (s.reg rm, s.flags.c)

/-- A shift length taken from a register: its least significant byte (42_shift_operations R198). -/
def shiftLength (s : State) (rs : Reg) : Nat := (s.reg rs).toNat % 256

/-! ## Addressing forms -/

/-- The addressing forms of 43_load_store R211. -/
inductive AddrForm where
  /-- `[Rn {, #off}]`, also the unprivileged form. -/
  | offset (rn : Reg) (off : Word)
  /-- `[Rn, #off]!` -/
  | preIndexed (rn : Reg) (off : Word)
  /-- `[Rn], #off` -/
  | postIndexed (rn : Reg) (off : Word)
  /-- `[Rn, Rm {, LSL #n}]` -/
  | register (rn rm : Reg) (n : Nat)
  /-- `label`, as an offset from `PCalign(A)` (43_load_store R212). -/
  | literal (off : Word)
deriving DecidableEq, Repr

/-- The address an addressing form accesses (43_load_store R211, R212). -/
def AddrForm.address (f : AddrForm) (s : State) : Word :=
  match f with
  | .offset rn off => s.reg rn + off
  | .preIndexed rn off => s.reg rn + off
  | .postIndexed rn _ => s.reg rn
  | .register rn rm n => s.reg rn + (s.reg rm <<< n)
  | .literal off => pcAlign s.pc + off

/-- What an addressing form writes back, and to which register (43_load_store R211). -/
def AddrForm.writeback (f : AddrForm) (s : State) : Option (Reg × Word) :=
  match f with
  | .offset _ _ => none
  | .preIndexed rn off => some (rn, s.reg rn + off)
  | .postIndexed rn off => some (rn, s.reg rn + off)
  | .register _ _ _ => none
  | .literal _ => none

/-- An offset field with its add bit: `+imm` if U else `-imm` (30_encoding R103, R116). -/
def signedOffset (u : Bool) (imm : Nat) : Word := if u then BitVec.ofNat 32 imm else -(BitVec.ofNat 32 imm)

/-! ## Register lists -/

/-- The registers R0 to R12 of a list's bits, ascending, then LR if `m` (43_load_store R224: SP is never in a list and PC is
kept apart). -/
def regList (list : BitVec 13) (m : Bool) : List Reg :=
  ((List.range 13).filter fun i => list.getLsbD i).map Reg.ofNum ++ (if m then [.lr] else [])

/-- The registers R0 to R7 of a 16-bit encoding's list (30_encoding R114). -/
def lowRegList (list : BitVec 8) : List Reg := regList (list.setWidth 13) false

/-! ## Branch offsets (30_encoding R103) -/

/-- `sext_32(imm : 0)`. -/
def branchOffset {w : Nat} (imm : BitVec w) : Word := (imm.signExtend 32) <<< 1

/-- `zext_32(i : imm5 : 0)` of CBZ and CBNZ. -/
def forwardOffset (imm6 : BitVec 6) : Word := (imm6.setWidth 32) <<< 1

/-! ## The IT block -/

/-- The conditions of a block's second to fourth instruction from the mask's bits above its lowest 1: a bit equal to
`firstcond[0]` is T, the other is E (30_encoding R117). -/
def itRest (firstcond : Cond) (f : Bool) (bs : List Bool) : List Cond :=
  match bs with
  | [] => []
  | b :: rest =>
    if rest.any id then (if b == f then firstcond else firstcond.inverse) :: itRest firstcond f rest else []

/-- The conditions of the block an IT instruction opens: `[cond, c_x, c_y, c_z]` (44_branch_and_conditional R244;
30_encoding R117). -/
def itBlock (firstcond : Cond) (mask : BitVec 4) : List Cond :=
  firstcond :: itRest firstcond (decide (firstcond.num % 2 = 1))
    [mask.getLsbD 3, mask.getLsbD 2, mask.getLsbD 1, mask.getLsbD 0]

end Sys2Proof.Machine
end

