-- ==== Sys2Proof/Machine/Program.lean ====
section
/-! DEFINITION. The program as memory holds it: where its instructions start, and which of them stand in an IT block
(30_encoding R90, R93; 44_branch_and_conditional R244). A byte of the program is one the launch memory admits the fetch of
(20_memory R69, R72). A halfword is named by its number `k`: its address is `2 * k`. How the program is read is the model's
choice: notes/assumptions/11.md. -/

namespace Sys2Proof.Machine

/-- The launch memory admits the fetch of the halfword `k` (20_memory R69, R72). -/
def inProgram (c : Config) (k : Nat) : Bool := c.admits .fetch (2 * k) 2

/-- The halfword `k` of the program has the form of the first halfword of a 32-bit instruction (30_encoding R93). -/
def beginsWide (m : Memory) (c : Config) (k : Nat) : Bool :=
  inProgram c k && is32 (halfOfBytes (m.read (2 * k)) (m.read (2 * k + 1)))

/-- An instruction of the program starts at halfword `k`: the halfword before it does not start a 32-bit instruction
(30_encoding R90, R93). -/
def instrStart (m : Memory) (c : Config) (k : Nat) : Bool :=
  match k with
  | 0 => true
  | j + 1 => !(beginsWide m c j && instrStart m c j)

/-- The halfword after the instruction that starts at halfword `k` (30_encoding R90, R93). -/
def instrAfter (m : Memory) (c : Config) (k : Nat) : Nat := if beginsWide m c k then k + 2 else k + 1

/-- Where `n` consecutive instructions from halfword `k` on start. -/
def instrStarts (m : Memory) (c : Config) (n k : Nat) : List Nat :=
  match n with
  | 0 => []
  | n' + 1 => k :: instrStarts m c n' (instrAfter m c k)

/-- The number of instructions in the block of the IT instruction at halfword `k` (44_branch_and_conditional R244), 0 where
the halfword is none. -/
def itLength (m : Memory) (c : Config) (k : Nat) : Nat :=
  if inProgram c k then
    match decode (m.readBytes (2 * k) 2) with
    | .ok (.it firstcond mask, []) => (itBlock firstcond mask).length
    | _ => 0
  else 0

/-- The address `a` is that of an instruction in the block of an IT instruction of the program: a branch there is a branch into
the middle of a block (44_branch_and_conditional R244; 93_implementation_defined U6 (g)). The IT stands 1 to 7 halfwords
before: a block has at most four instructions. -/
def inItBlock (m : Memory) (c : Config) (a : Word) : Bool :=
  let t := a.toNat / 2
  decide (2 * t = a.toNat) && [1, 2, 3, 4, 5, 6, 7].any fun d =>
    decide (d ≤ t) && decide (t ∈ instrStarts m c (itLength m c (t - d)) (t - d + 1)) && instrStart m c (t - d)

end Sys2Proof.Machine
end

