-- ==== Sys2Proof/Machine/Ops.lean ====
section
/-! DEFINITION. The operations the instructions share: sequencing, taking an exception, memory accesses, advancing and
writing the PC, the frame around a conditional instruction, the special registers, and the common steps of each family. -/

namespace Sys2Proof.Machine

/-- The outcome of a step of this machine. -/
abbrev Result := Host.Outcome State Fault Refusal

/-- An intermediate value, or the reason the step stops. -/
abbrev Attempt (α : Type) := Host.Outcome α Fault Refusal

/-- Go on with the value of an attempt; a fault or a refusal ends the step. -/
def andThen {α β : Type} (x : Attempt α) (f : α → Attempt β) : Attempt β :=
  match x with
  | .next a => f a
  | .fault r => .fault r
  | .refused r => .refused r

/-! ## Taking an exception -/

/-- `raise UsageFault(cause)` at the instruction at the PC (60_exceptions R271): the instruction has no other effect and the
outcome of the step is the fault. The model enters no handler and so has no return from one (60_exceptions R271, R277, R279;
notes/assumptions/7.md). -/
def raiseUsageFault {α : Type} (cause : UsageCause) (s : State) : Attempt α := .fault (.usageFault cause s.pc)

/-! ## Memory accesses -/

/-- The class of an access (20_memory R61, R62). -/
inductive AccessClass where
  | byte | halfword | word | dualword | multiword
deriving DecidableEq, Repr

/-- `Aligned(a, class)` (20_memory R62). -/
def aligned (a : Word) (cls : AccessClass) : Bool :=
  match cls with
  | .byte => true
  | .halfword => decide (a.toNat % 2 = 0)
  | .word | .dualword | .multiword => decide (a.toNat % 4 = 0)

/-- `CheckAlign(instr, a, class)` (20_memory R64 to R66); `unalignedOk` says that the instruction is in `UnalignedOK`
(R63). -/
def checkAlign (unalignedOk : Bool) (cls : AccessClass) (a : Word) (s : State) : Attempt Unit :=
  if aligned a cls then .next ()
  else if !unalignedOk then raiseUsageFault (.unaligned a) s
  else if s.unalignTrp then raiseUsageFault (.unaligned a) s
  else if !s.cfg.supportsUnaligned a.toNat then raiseUsageFault (.unaligned a) s
  else .next ()

/-- The part of `MemRead(a, n)` after the alignment check (20_memory R67, R70, R72). -/
def readAt (a n : Nat) (s : State) : Attempt Word :=
  if addressCount < a + n then .refused .addressTop
  else if !s.cfg.admits .read a n then .fault (.stuck .read a)
  else .next (s.mem.readLe a n)

/-- `MemRead(a, n)` by an access of class `cls` (20_memory R70). -/
def memRead (unalignedOk : Bool) (cls : AccessClass) (a : Word) (n : Nat) (s : State) : Attempt Word :=
  andThen (checkAlign unalignedOk cls a s) fun _ => readAt a.toNat n s

/-- The part of `MemWrite(a, n, v)` after the alignment check (20_memory R67, R70, R72, R77): the state with the bytes
stored. -/
def writeAt (a n : Nat) (v : Word) (s : State) : Attempt State :=
  if addressCount < a + n then .refused .addressTop
  else if s.cfg.touchesText a n then .refused (.textStore a)
  else if !s.cfg.admits .write a n then .fault (.stuck .write a)
  else .next { s with mem := s.mem.writeLe a n v }

/-- `MemWrite(a, n, v)` by an access of class `cls` (20_memory R70). -/
def memWrite (unalignedOk : Bool) (cls : AccessClass) (a : Word) (n : Nat) (v : Word) (s : State) : Attempt State :=
  andThen (checkAlign unalignedOk cls a s) fun _ => writeAt a.toNat n v s

/-- `k` consecutive words from address `a` on, the lowest first (43_load_store R224). -/
def readWords (k : Nat) (a : Nat) (s : State) : Attempt (List Word) :=
  match k with
  | 0 => .next []
  | k' + 1 => andThen (readAt a 4 s) fun v => andThen (readWords k' (a + 4) s) fun vs => .next (v :: vs)

/-! ## The PC and the IT state -/

/-- The width of an instruction in bytes: its encoding has one halfword or two (30_encoding R90). -/
def width (i : Instr) : Nat := 2 * (encode i).length

/-- Complete an instruction that does not write the PC (10_state R26; 44_branch_and_conditional R245): the PC advances by the
instruction's width and the IT state by one instruction. An advance across the top of the address space is refused
(92_eei_decisions D4). -/
def retire (i : Instr) (s : State) : Result :=
  if s.pc.toNat + width i < addressCount then
    .next { s with pc := s.pc + BitVec.ofNat 32 (width i), itstate := s.itstate.tail }
  else .refused .addressTop

/-- Complete an instruction that writes the PC: `pc <- target` (10_state R25; 44_branch_and_conditional R245). A branch into the
middle of an IT block is refused (44_branch_and_conditional R244; 93_implementation_defined U6 (g); notes/assumptions/11.md).
Every branch and every load of the PC completes here. -/
def branchTo (target : Word) (s : State) : Result :=
  if inItBlock s.mem s.cfg target then .refused (.branchIntoBlock target)
  else .next { s with pc := target, itstate := s.itstate.tail }

/-- Write the PC with an address whose bit[0] must be 1: BX, BLX, LDM, LDR, POP (10_state R25; 43_load_store R226;
44_branch_and_conditional R254). `s` is the state before the instruction, `s'` the state with its other effects. -/
def loadWritePc (v : Word) (s s' : State) : Result :=
  if v.getLsbD 0 then branchTo (v &&& 0xFFFFFFFE#32) s' else raiseUsageFault .invstate s

/-! ## Conditional execution -/

/-- Where in an IT block an instruction may stand (44_branch_and_conditional R244). -/
inductive Placement where
  /-- Anywhere inside or outside a block. -/
  | anywhere
  /-- Outside a block, or as the last instruction of one: an instruction that writes the PC. -/
  | lastOfBlock
  /-- Outside a block only. -/
  | outsideBlock
deriving DecidableEq, Repr

/-- The placement holds in the state's IT block. -/
def Placement.holds (p : Placement) (s : State) : Bool :=
  match p with
  | .anywhere => true
  | .lastOfBlock => decide (s.itstate.length ≤ 1)
  | .outsideBlock => s.itstate.isEmpty

/-- The condition of the current instruction (44_branch_and_conditional R245): the head of the IT state, outside a block the
instruction's own, which is AL but for B<cond>. -/
def currentCond (own : Cond) (s : State) : Cond :=
  match s.itstate with
  | c :: _ => c
  | [] => own

/-- `ConditionPassed()` (44_branch_and_conditional R241). -/
def conditionPassed (own : Cond) (s : State) : Bool := (currentCond own s).holds s.flags

/-- The frame of a conditional instruction, in the order of 60_exceptions R275: (1) a failed condition ends it with no effect
but the advance (44_branch_and_conditional R242); (2) a restricted form or place is refused; then its own effect. -/
def conditionalAs (own : Cond) (p : Placement) (i : Instr) (s : State) (effect : Result) : Result :=
  if !conditionPassed own s then retire i s
  else if !i.wellFormed then .refused .form
  else if !p.holds s then .refused .itPlacement
  else effect

/-- A conditional instruction that may stand anywhere. -/
def conditional (i : Instr) (s : State) (effect : Result) : Result := conditionalAs .al .anywhere i s effect

/-- An instruction that takes no condition and may not stand in an IT block: IT, CBZ, CBNZ (44_branch_and_conditional R244,
R249, R250). -/
def unconditional (i : Instr) (s : State) (effect : Result) : Result :=
  if !i.wellFormed then .refused .form
  else if !Placement.outsideBlock.holds s then .refused .itPlacement
  else effect

/-- A 16-bit data-processing encoding without an S bit sets the flags outside an IT block and does not inside one
(30_encoding R118). -/
def setsFlags16 (s : State) : Bool := s.itstate.isEmpty

/-! ## Data processing -/

/-- Write the flags if the instruction sets them (41_operand2_data_processing R158). -/
def State.withFlags (s : State) (sf : Bool) (f : Flags) : State := if sf then { s with flags := f } else s

/-- A logical, move or shift instruction with a destination: `r` its result, `carry` the carry of its second operand or of
its shift (41_operand2_data_processing R159 to R167; 42_shift_operations R197, R199 to R203). -/
def logicalTo (i : Instr) (sf : Bool) (rd : Reg) (r : Word) (carry : Bool) (s : State) : Result :=
  conditional i s (retire i ((s.setReg rd r).withFlags sf (s.flags.logical r carry)))

/-- TEQ and TST: the flags of a logical result that is discarded (41_operand2_data_processing R168, R169, R175). -/
def logicalTest (i : Instr) (r : Word) (carry : Bool) (s : State) : Result :=
  conditional i s (retire i (s.withFlags true (s.flags.logical r carry)))

/-- ADD and RSB (41_operand2_data_processing R172, R173). -/
def arithTo (i : Instr) (sf : Bool) (rd : Reg) (a : ArithResult) (s : State) : Result :=
  conditional i s (retire i ((s.setReg rd a.value).withFlags sf (Flags.arith a)))

/-- CMP and CMN: the flags of a difference or sum that is discarded (41_operand2_data_processing R170, R171, R175). -/
def arithTest (i : Instr) (a : ArithResult) (s : State) : Result :=
  conditional i s (retire i (s.withFlags true (Flags.arith a)))

/-- A shift instruction: the register `rm` shifted by `n` (42_shift_operations R199 to R203). -/
def shiftTo (i : Instr) (sf : Bool) (rd rm : Reg) (op : ShiftOp) (n : Nat) (s : State) : Result :=
  logicalTo i sf rd (shiftC (s.reg rm) op n s.flags.c).1 (shiftC (s.reg rm) op n s.flags.c).2 s

/-! ## Loads and stores -/

/-- Write a base register back, if the form does (43_load_store R213). -/
def State.writeBack (s : State) (wb : Option (Reg × Word)) : State :=
  match wb with
  | some (r, v) => s.setReg r v
  | none => s

/-- `Load(instr, Rt, form, 4, zero)`: LDR and LDRT (43_load_store R213 to R215). A load of the PC stands last in an IT
block and needs a word-aligned address (R226). -/
def loadWord (i : Instr) (rt : Reg) (form : AddrForm) (s : State) : Result :=
  conditionalAs .al (if rt = .pc then .lastOfBlock else .anywhere) i s
    (andThen (checkAlign true .word (form.address s) s) fun _ =>
      if decide (rt = .pc) && !aligned (form.address s) .word then .refused .unalignedPcLoad
      else
        andThen (readAt (form.address s).toNat 4 s) fun v =>
          if rt = .pc then loadWritePc v s (s.writeBack (form.writeback s))
          else retire i ((s.writeBack (form.writeback s)).setReg rt v))

/-- The extension of a halfword load (43_load_store R213). -/
inductive Extend where
  | zero | sign
deriving DecidableEq, Repr

/-- `zext_32` or `sext_32` of the halfword in bits[15:0] (43_load_store R213, R216, R218). -/
def extendHalf (ext : Extend) (v : Word) : Word :=
  match ext with
  | .zero => (v.setWidth 16).setWidth 32
  | .sign => (v.setWidth 16).signExtend 32

/-- `Load(instr, Rt, form, 2, ext)`: LDRH, LDRHT, LDRSH, LDRSHT (43_load_store R213, R216 to R219). -/
def loadHalf (i : Instr) (rt : Reg) (form : AddrForm) (ext : Extend) (s : State) : Result :=
  conditional i s
    (andThen (memRead true .halfword (form.address s) 2 s) fun v =>
      retire i ((s.writeBack (form.writeback s)).setReg rt (extendHalf ext v)))

/-- `Store(instr, Rt, form, size)`: STR, STRT with `n` 4, STRH, STRHT with `n` 2 (43_load_store R213, R220 to R223). -/
def store (i : Instr) (rt : Reg) (form : AddrForm) (cls : AccessClass) (n : Nat) (s : State) : Result :=
  conditional i s
    (andThen (memWrite true cls (form.address s) n (s.reg rt) s) fun s' =>
      retire i (s'.writeBack (form.writeback s)))

/-- LDM, LDMDB and POP (43_load_store R224, R225): the words at `start` on go to `regs`, ascending, and the next one to the
PC if `toPc`; `wb` is what is written back. -/
def loadMultiple (i : Instr) (regs : List Reg) (toPc : Bool) (start : Word) (wb : Option (Reg × Word)) (s : State) :
    Result :=
  conditionalAs .al (if toPc then .lastOfBlock else .anywhere) i s
    (andThen (checkAlign false .multiword start s) fun _ =>
      andThen (readWords regs.length start.toNat s) fun vs =>
        if toPc then
          andThen (readAt (start.toNat + 4 * regs.length) 4 s) fun v =>
            loadWritePc v s ((s.setRegs (regs.zip vs)).writeBack wb)
        else retire i ((s.setRegs (regs.zip vs)).writeBack wb))

/-- The number of bytes a multiple load of `regs`, and of the PC if `toPc`, reads: `4*k` (43_load_store R224). -/
def multipleBytes (regs : List Reg) (toPc : Bool) : Nat := 4 * (regs.length + toPc.toNat)

/-! ## Special registers -/

/-- `priv`: the model is always in Thread mode, so privileged means CONTROL[0] = 0 (40_special_register_access R146;
60_exceptions R278; 90_conflicts C8). -/
def State.privileged (s : State) : Bool := !s.control.getLsbD 0

/-- `PrioMask`: the top `cfg.prioBits` bits of 0xFF (40_special_register_access R146; 10_state R34). -/
def prioMask (prioBits : Nat) : Word := (0xFF#32 <<< (8 - prioBits)) &&& 0xFF#32

/-- The bits of CONTROL a write reaches: nPRIV, SPSEL (Thread mode) and, with `cfg.hasFP`, FPCA
(40_special_register_access R146; 10_state R35). -/
def controlMask (hasFP : Bool) : Word := if hasFP then 7#32 else 3#32

/-- The bits of `mask` taken from `v`, the others from `old`: a write that the other bits ignore. -/
def mergeBits (mask old v : Word) : Word := (old &&& ~~~mask) ||| (v &&& mask)

/-- `ReadSpecial(reg)` (40_special_register_access R146). -/
def readSpecial (r : SysReg) (s : State) : Word :=
  match r with
  | .control => s.control &&& 7#32
  | .primask => if s.privileged then s.primask &&& 1#32 else 0#32
  | .faultmask => if s.privileged then s.faultmask &&& 1#32 else 0#32
  | .basepri => if s.privileged then s.basepri &&& prioMask s.cfg.prioBits else 0#32
  | .msp => if s.privileged then stackAligned s.msp else 0#32
  | .psp => if s.privileged then stackAligned s.psp else 0#32

/-- `WriteSpecial(reg, v)` (40_special_register_access R146). The execution priority of a thread is the base level, so the
FAULTMASK condition holds. -/
def writeSpecial (r : SysReg) (v : Word) (s : State) : State :=
  if !s.privileged then s
  else
    match r with
    | .primask => { s with primask := mergeBits 1#32 s.primask v }
    | .faultmask => { s with faultmask := mergeBits 1#32 s.faultmask v }
    | .basepri => { s with basepri := mergeBits 0xFF#32 s.basepri (v &&& prioMask s.cfg.prioBits) }
    | .control => { s with control := mergeBits (controlMask s.cfg.hasFP) s.control v }
    | .msp => { s with msp := stackAligned v }
    | .psp => { s with psp := stackAligned v }

/-- A Read function as `MRS Rd, reg` (40_special_register_access R131, R132). -/
def readFunction (i : Instr) (rd : Reg) (r : SysReg) (s : State) : Result :=
  conditional i s (retire i (s.setReg rd (readSpecial r s)))

/-- A Write function as `MSR reg, Rn` (40_special_register_access R131, R132). -/
def writeFunction (i : Instr) (rn : Reg) (r : SysReg) (s : State) : Result :=
  conditional i s (retire i (writeSpecial r (s.reg rn) s))

end Sys2Proof.Machine
end

