-- ==== Sys2Proof/Machine/Branch.lean ====
section
/-! DEFINITION. IT and the branches (44_branch_and_conditional R243 to R254). -/

namespace Sys2Proof.Machine

/-- `BX Rm`, T16.SPECIAL (R251). -/
def execBx (rm : Reg) (s : State) : Result :=
  conditionalAs .al .lastOfBlock (.bx rm) s (loadWritePc (s.reg rm) s s)

/-- `BLX Rm`, T16.SPECIAL (R252). -/
def execBlx (rm : Reg) (s : State) : Result :=
  conditionalAs .al .lastOfBlock (.blx rm) s
    (loadWritePc (s.reg rm) s (s.setReg .lr ((s.pc + 2#32) ||| 1#32)))

/-- `CBZ Rn, label`, T16.CB (R249). -/
def execCbz (rn : LowReg) (imm6 : BitVec 6) (s : State) : Result :=
  unconditional (.cbz rn imm6) s
    (if s.reg rn.reg = 0#32 then branchTo (pcBranch s.pc + forwardOffset imm6) s else retire (.cbz rn imm6) s)

/-- `CBNZ Rn, label`, T16.CB (R250). -/
def execCbnz (rn : LowReg) (imm6 : BitVec 6) (s : State) : Result :=
  unconditional (.cbnz rn imm6) s
    (if s.reg rn.reg ≠ 0#32 then branchTo (pcBranch s.pc + forwardOffset imm6) s else retire (.cbnz rn imm6) s)

/-- `IT(x(y(z))) cond`, T16.IT (R244). -/
def execIt (firstcond : Cond) (mask : BitVec 4) (s : State) : Result :=
  unconditional (.it firstcond mask) s
    (andThen (retire (.it firstcond mask) s) fun t => .next { t with itstate := itBlock firstcond mask })

/-- `B<cond> label`, T16.BCOND (R247). -/
def execBCond16 (c : Cond) (imm8 : BitVec 8) (s : State) : Result :=
  conditionalAs c .outsideBlock (.bCond16 c imm8) s (branchTo (pcBranch s.pc + branchOffset imm8) s)

/-- `B label`, T16.B (R247). -/
def execB16 (imm11 : BitVec 11) (s : State) : Result :=
  conditionalAs .al .lastOfBlock (.b16 imm11) s (branchTo (pcBranch s.pc + branchOffset imm11) s)

/-- `B<cond>.W label`, T32.BCOND (R247). -/
def execBCond32 (c : Cond) (imm20 : BitVec 20) (s : State) : Result :=
  conditionalAs c .outsideBlock (.bCond32 c imm20) s (branchTo (pcBranch s.pc + branchOffset imm20) s)

/-- `B.W label`, T32.B (R247). -/
def execB32 (imm24 : BitVec 24) (s : State) : Result :=
  conditionalAs .al .lastOfBlock (.b32 imm24) s (branchTo (pcBranch s.pc + branchOffset imm24) s)

/-- `BL label`, T32.BL (R248). -/
def execBl (imm24 : BitVec 24) (s : State) : Result :=
  conditionalAs .al .lastOfBlock (.bl imm24) s
    (branchTo (pcBranch s.pc + branchOffset imm24) (s.setReg .lr ((s.pc + 4#32) ||| 1#32)))

end Sys2Proof.Machine
end

