-- ==== Sys2Proof/Machine/DataProc16.lean ====
section
/-! DEFINITION. The 16-bit data-processing and shift instructions: formats T16.SHI, T16.ADD3, T16.IMM8, T16.DP and T16.SPECIAL
(30_encoding R110 to R113, R118), with the meanings of 41_operand2_data_processing and 42_shift_operations. -/

namespace Sys2Proof.Machine

/-! ## T16.SHI (30_encoding R110) -/

/-- `LSLS Rd, Rm, #imm5`, T16.SHI (R201). -/
def execLslsImm16 (rd rm : LowReg) (imm5 : BitVec 5) (s : State) : Result :=
  shiftTo (.lslsImm16 rd rm imm5) (setsFlags16 s) rd.reg rm.reg .lsl imm5.toNat s

/-- `MOVS Rd, Rm`, T16.SHI (R161). -/
def execMovsReg16 (rd rm : LowReg) (s : State) : Result :=
  conditionalAs .al .outsideBlock (.movsReg16 rd rm) s
    (retire (.movsReg16 rd rm)
      ((s.setReg rd.reg (op2Plain s rm.reg).1).withFlags true
        (s.flags.logical (op2Plain s rm.reg).1 (op2Plain s rm.reg).2)))

/-- `LSRS Rd, Rm, #imm5`, T16.SHI (R200). -/
def execLsrsImm16 (rd rm : LowReg) (imm5 : BitVec 5) (s : State) : Result :=
  shiftTo (.lsrsImm16 rd rm imm5) (setsFlags16 s) rd.reg rm.reg .lsr (decodeShift .lsr imm5).2 s

/-- `ASRS Rd, Rm, #imm5`, T16.SHI (R199). -/
def execAsrsImm16 (rd rm : LowReg) (imm5 : BitVec 5) (s : State) : Result :=
  shiftTo (.asrsImm16 rd rm imm5) (setsFlags16 s) rd.reg rm.reg .asr (decodeShift .asr imm5).2 s

/-! ## T16.ADD3 and T16.IMM8 (30_encoding R111) -/

/-- `ADDS Rd, Rn, Rm`, T16.ADD3 (R173). -/
def execAddsReg16 (rd rn rm : LowReg) (s : State) : Result :=
  arithTo (.addsReg16 rd rn rm) (setsFlags16 s) rd.reg (addWithCarry (s.reg rn.reg) (s.reg rm.reg) false) s

/-- `ADDS Rd, Rn, #imm3`, T16.ADD3 (R173). -/
def execAddsImm3 (rd rn : LowReg) (imm3 : BitVec 3) (s : State) : Result :=
  arithTo (.addsImm3 rd rn imm3) (setsFlags16 s) rd.reg (addWithCarry (s.reg rn.reg) (imm3.setWidth 32) false) s

/-- `MOVS Rd, #imm8`, T16.IMM8 (R161). -/
def execMovsImm8 (rd : LowReg) (imm8 : BitVec 8) (s : State) : Result :=
  logicalTo (.movsImm8 rd imm8) (setsFlags16 s) rd.reg (op2Const (imm8.setWidth 32) s.flags.c).1
    (op2Const (imm8.setWidth 32) s.flags.c).2 s

/-- `CMP Rn, #imm8`, T16.IMM8 (R170). -/
def execCmpImm8 (rn : LowReg) (imm8 : BitVec 8) (s : State) : Result :=
  arithTest (.cmpImm8 rn imm8) (sub (s.reg rn.reg) (imm8.setWidth 32)) s

/-- `ADDS Rdn, #imm8`, T16.IMM8 (R173). -/
def execAddsImm8 (rdn : LowReg) (imm8 : BitVec 8) (s : State) : Result :=
  arithTo (.addsImm8 rdn imm8) (setsFlags16 s) rdn.reg (addWithCarry (s.reg rdn.reg) (imm8.setWidth 32) false) s

/-! ## T16.DP (30_encoding R112) -/

/-- `ANDS Rdn, Rm`, T16.DP (R163). -/
def execAndsReg16 (rdn rm : LowReg) (s : State) : Result :=
  logicalTo (.andsReg16 rdn rm) (setsFlags16 s) rdn.reg (s.reg rdn.reg &&& (op2Plain s rm.reg).1) (op2Plain s rm.reg).2 s

/-- `EORS Rdn, Rm`, T16.DP (R166). -/
def execEorsReg16 (rdn rm : LowReg) (s : State) : Result :=
  logicalTo (.eorsReg16 rdn rm) (setsFlags16 s) rdn.reg (s.reg rdn.reg ^^^ (op2Plain s rm.reg).1) (op2Plain s rm.reg).2 s

/-- `LSLS Rdn, Rs`, T16.DP (R201). -/
def execLslsReg16 (rdn rs : LowReg) (s : State) : Result :=
  shiftTo (.lslsReg16 rdn rs) (setsFlags16 s) rdn.reg rdn.reg .lsl (shiftLength s rs.reg) s

/-- `LSRS Rdn, Rs`, T16.DP (R200). -/
def execLsrsReg16 (rdn rs : LowReg) (s : State) : Result :=
  shiftTo (.lsrsReg16 rdn rs) (setsFlags16 s) rdn.reg rdn.reg .lsr (shiftLength s rs.reg) s

/-- `ASRS Rdn, Rs`, T16.DP (R199). -/
def execAsrsReg16 (rdn rs : LowReg) (s : State) : Result :=
  shiftTo (.asrsReg16 rdn rs) (setsFlags16 s) rdn.reg rdn.reg .asr (shiftLength s rs.reg) s

/-- `RORS Rdn, Rs`, T16.DP (R202). -/
def execRorsReg16 (rdn rs : LowReg) (s : State) : Result :=
  shiftTo (.rorsReg16 rdn rs) (setsFlags16 s) rdn.reg rdn.reg .ror (shiftLength s rs.reg) s

/-- `TST Rn, Rm`, T16.DP (R169). -/
def execTstReg16 (rn rm : LowReg) (s : State) : Result :=
  logicalTest (.tstReg16 rn rm) (s.reg rn.reg &&& (op2Plain s rm.reg).1) (op2Plain s rm.reg).2 s

/-- `RSBS Rd, Rn, #0`, T16.DP (R172). -/
def execRsbsZero16 (rd rn : LowReg) (s : State) : Result :=
  arithTo (.rsbsZero16 rd rn) (setsFlags16 s) rd.reg (sub 0#32 (s.reg rn.reg)) s

/-- `CMP Rn, Rm`, T16.DP (R170). -/
def execCmpReg16 (rn rm : LowReg) (s : State) : Result :=
  arithTest (.cmpReg16 rn rm) (sub (s.reg rn.reg) (s.reg rm.reg)) s

/-- `CMN Rn, Rm`, T16.DP (R171). -/
def execCmnReg16 (rn rm : LowReg) (s : State) : Result :=
  arithTest (.cmnReg16 rn rm) (addWithCarry (s.reg rn.reg) (s.reg rm.reg) false) s

/-- `ORRS Rdn, Rm`, T16.DP (R164). -/
def execOrrsReg16 (rdn rm : LowReg) (s : State) : Result :=
  logicalTo (.orrsReg16 rdn rm) (setsFlags16 s) rdn.reg (s.reg rdn.reg ||| (op2Plain s rm.reg).1) (op2Plain s rm.reg).2 s

/-- `BICS Rdn, Rm`, T16.DP (R167). -/
def execBicsReg16 (rdn rm : LowReg) (s : State) : Result :=
  logicalTo (.bicsReg16 rdn rm) (setsFlags16 s) rdn.reg (s.reg rdn.reg &&& ~~~(op2Plain s rm.reg).1) (op2Plain s rm.reg).2 s

/-- `MVNS Rd, Rm`, T16.DP (R162). -/
def execMvnsReg16 (rd rm : LowReg) (s : State) : Result :=
  logicalTo (.mvnsReg16 rd rm) (setsFlags16 s) rd.reg (~~~(op2Plain s rm.reg).1) (op2Plain s rm.reg).2 s

/-! ## T16.SPECIAL without the branches (30_encoding R113) -/

/-- `ADD Rdn, Rm`, T16.SPECIAL (R173). -/
def execAddHigh (rdn rm : Reg) (s : State) : Result :=
  arithTo (.addHigh rdn rm) false rdn (addWithCarry (s.reg rdn) (s.reg rm) false) s

/-- `CMP Rn, Rm (high)`, T16.SPECIAL (R170). -/
def execCmpHigh (rn rm : Reg) (s : State) : Result :=
  arithTest (.cmpHigh rn rm) (sub (s.reg rn) (s.reg rm)) s

/-- `MOV Rd, Rm`, T16.SPECIAL (R161). -/
def execMovHigh (rd rm : Reg) (s : State) : Result :=
  logicalTo (.movHigh rd rm) false rd (op2Plain s rm).1 (op2Plain s rm).2 s

end Sys2Proof.Machine
end

