-- ==== Sys2Proof/Machine/DataProc32.lean ====
section
/-! DEFINITION. The 32-bit data-processing and shift instructions: formats T32.DPMI, T32.DPSR and T32.SHREG (30_encoding R116), with
the meanings of 41_operand2_data_processing and 42_shift_operations. -/

namespace Sys2Proof.Machine

/-! ## T32.DPMI: Operand2 is a constant (30_encoding R116, R101) -/

/-- `AND(S) Rd, Rn, #const`, T32.DPMI (R163). -/
def execAndConst (sf : Bool) (rd rn : Reg) (imm12 : BitVec 12) (s : State) : Result :=
  logicalTo (.andConst sf rd rn imm12) sf rd (s.reg rn &&& (op2OfField imm12 s.flags.c).1) (op2OfField imm12 s.flags.c).2 s

/-- `BIC(S) Rd, Rn, #const`, T32.DPMI (R167). -/
def execBicConst (sf : Bool) (rd rn : Reg) (imm12 : BitVec 12) (s : State) : Result :=
  logicalTo (.bicConst sf rd rn imm12) sf rd (s.reg rn &&& ~~~(op2OfField imm12 s.flags.c).1) (op2OfField imm12 s.flags.c).2 s

/-- `ORR(S) Rd, Rn, #const`, T32.DPMI (R164). -/
def execOrrConst (sf : Bool) (rd rn : Reg) (imm12 : BitVec 12) (s : State) : Result :=
  logicalTo (.orrConst sf rd rn imm12) sf rd (s.reg rn ||| (op2OfField imm12 s.flags.c).1) (op2OfField imm12 s.flags.c).2 s

/-- `ORN(S) Rd, Rn, #const`, T32.DPMI (R165). -/
def execOrnConst (sf : Bool) (rd rn : Reg) (imm12 : BitVec 12) (s : State) : Result :=
  logicalTo (.ornConst sf rd rn imm12) sf rd (s.reg rn ||| ~~~(op2OfField imm12 s.flags.c).1) (op2OfField imm12 s.flags.c).2 s

/-- `EOR(S) Rd, Rn, #const`, T32.DPMI (R166). -/
def execEorConst (sf : Bool) (rd rn : Reg) (imm12 : BitVec 12) (s : State) : Result :=
  logicalTo (.eorConst sf rd rn imm12) sf rd (s.reg rn ^^^ (op2OfField imm12 s.flags.c).1) (op2OfField imm12 s.flags.c).2 s

/-- `ADD(S) Rd, Rn, #const`, T32.DPMI (R173). -/
def execAddConst (sf : Bool) (rd rn : Reg) (imm12 : BitVec 12) (s : State) : Result :=
  arithTo (.addConst sf rd rn imm12) sf rd (addWithCarry (s.reg rn) (op2OfField imm12 s.flags.c).1 false) s

/-- `RSB(S) Rd, Rn, #const`, T32.DPMI (R172). -/
def execRsbConst (sf : Bool) (rd rn : Reg) (imm12 : BitVec 12) (s : State) : Result :=
  arithTo (.rsbConst sf rd rn imm12) sf rd (sub (op2OfField imm12 s.flags.c).1 (s.reg rn)) s

/-- `TST Rn, #const`, T32.DPMI (R169). -/
def execTstConst (rn : Reg) (imm12 : BitVec 12) (s : State) : Result :=
  logicalTest (.tstConst rn imm12) (s.reg rn &&& (op2OfField imm12 s.flags.c).1) (op2OfField imm12 s.flags.c).2 s

/-- `TEQ Rn, #const`, T32.DPMI (R168). -/
def execTeqConst (rn : Reg) (imm12 : BitVec 12) (s : State) : Result :=
  logicalTest (.teqConst rn imm12) (s.reg rn ^^^ (op2OfField imm12 s.flags.c).1) (op2OfField imm12 s.flags.c).2 s

/-- `CMN Rn, #const`, T32.DPMI (R171). -/
def execCmnConst (rn : Reg) (imm12 : BitVec 12) (s : State) : Result :=
  arithTest (.cmnConst rn imm12) (addWithCarry (s.reg rn) (op2OfField imm12 s.flags.c).1 false) s

/-- `CMP Rn, #const`, T32.DPMI (R170). -/
def execCmpConst (rn : Reg) (imm12 : BitVec 12) (s : State) : Result :=
  arithTest (.cmpConst rn imm12) (sub (s.reg rn) (op2OfField imm12 s.flags.c).1) s

/-- `MOV(S) Rd, #const`, T32.DPMI (R161). -/
def execMovConst (sf : Bool) (rd : Reg) (imm12 : BitVec 12) (s : State) : Result :=
  logicalTo (.movConst sf rd imm12) sf rd (op2OfField imm12 s.flags.c).1 (op2OfField imm12 s.flags.c).2 s

/-- `MVN(S) Rd, #const`, T32.DPMI (R162). -/
def execMvnConst (sf : Bool) (rd : Reg) (imm12 : BitVec 12) (s : State) : Result :=
  logicalTo (.mvnConst sf rd imm12) sf rd (~~~(op2OfField imm12 s.flags.c).1) (op2OfField imm12 s.flags.c).2 s

/-! ## T32.DPSR: Operand2 is a register with optional shift (30_encoding R116, R102) -/

/-- `AND(S) Rd, Rn, Rm (, shift)`, T32.DPSR (R163). -/
def execAndShift (sf : Bool) (rd rn rm : Reg) (ty : ShiftType) (imm5 : BitVec 5) (s : State) : Result :=
  logicalTo (.andShift sf rd rn rm ty imm5) sf rd (s.reg rn &&& (op2Reg s rm ty imm5).1) (op2Reg s rm ty imm5).2 s

/-- `BIC(S) Rd, Rn, Rm (, shift)`, T32.DPSR (R167). -/
def execBicShift (sf : Bool) (rd rn rm : Reg) (ty : ShiftType) (imm5 : BitVec 5) (s : State) : Result :=
  logicalTo (.bicShift sf rd rn rm ty imm5) sf rd (s.reg rn &&& ~~~(op2Reg s rm ty imm5).1) (op2Reg s rm ty imm5).2 s

/-- `ORR(S) Rd, Rn, Rm (, shift)`, T32.DPSR (R164). -/
def execOrrShift (sf : Bool) (rd rn rm : Reg) (ty : ShiftType) (imm5 : BitVec 5) (s : State) : Result :=
  logicalTo (.orrShift sf rd rn rm ty imm5) sf rd (s.reg rn ||| (op2Reg s rm ty imm5).1) (op2Reg s rm ty imm5).2 s

/-- `ORN(S) Rd, Rn, Rm (, shift)`, T32.DPSR (R165). -/
def execOrnShift (sf : Bool) (rd rn rm : Reg) (ty : ShiftType) (imm5 : BitVec 5) (s : State) : Result :=
  logicalTo (.ornShift sf rd rn rm ty imm5) sf rd (s.reg rn ||| ~~~(op2Reg s rm ty imm5).1) (op2Reg s rm ty imm5).2 s

/-- `EOR(S) Rd, Rn, Rm (, shift)`, T32.DPSR (R166). -/
def execEorShift (sf : Bool) (rd rn rm : Reg) (ty : ShiftType) (imm5 : BitVec 5) (s : State) : Result :=
  logicalTo (.eorShift sf rd rn rm ty imm5) sf rd (s.reg rn ^^^ (op2Reg s rm ty imm5).1) (op2Reg s rm ty imm5).2 s

/-- `ADD(S) Rd, Rn, Rm (, shift)`, T32.DPSR (R173). -/
def execAddShift (sf : Bool) (rd rn rm : Reg) (ty : ShiftType) (imm5 : BitVec 5) (s : State) : Result :=
  arithTo (.addShift sf rd rn rm ty imm5) sf rd (addWithCarry (s.reg rn) (op2Reg s rm ty imm5).1 false) s

/-- `RSB(S) Rd, Rn, Rm (, shift)`, T32.DPSR (R172). -/
def execRsbShift (sf : Bool) (rd rn rm : Reg) (ty : ShiftType) (imm5 : BitVec 5) (s : State) : Result :=
  arithTo (.rsbShift sf rd rn rm ty imm5) sf rd (sub (op2Reg s rm ty imm5).1 (s.reg rn)) s

/-- `TST Rn, Rm (, shift)`, T32.DPSR (R169). -/
def execTstShift (rn rm : Reg) (ty : ShiftType) (imm5 : BitVec 5) (s : State) : Result :=
  logicalTest (.tstShift rn rm ty imm5) (s.reg rn &&& (op2Reg s rm ty imm5).1) (op2Reg s rm ty imm5).2 s

/-- `TEQ Rn, Rm (, shift)`, T32.DPSR (R168). -/
def execTeqShift (rn rm : Reg) (ty : ShiftType) (imm5 : BitVec 5) (s : State) : Result :=
  logicalTest (.teqShift rn rm ty imm5) (s.reg rn ^^^ (op2Reg s rm ty imm5).1) (op2Reg s rm ty imm5).2 s

/-- `CMN Rn, Rm (, shift)`, T32.DPSR (R171). -/
def execCmnShift (rn rm : Reg) (ty : ShiftType) (imm5 : BitVec 5) (s : State) : Result :=
  arithTest (.cmnShift rn rm ty imm5) (addWithCarry (s.reg rn) (op2Reg s rm ty imm5).1 false) s

/-- `CMP Rn, Rm (, shift)`, T32.DPSR (R170). -/
def execCmpShift (rn rm : Reg) (ty : ShiftType) (imm5 : BitVec 5) (s : State) : Result :=
  arithTest (.cmpShift rn rm ty imm5) (sub (s.reg rn) (op2Reg s rm ty imm5).1) s

/-- `MOV(S) Rd, Rm`, T32.DPSR (R161). -/
def execMovReg32 (sf : Bool) (rd rm : Reg) (s : State) : Result :=
  logicalTo (.movReg32 sf rd rm) sf rd (op2Plain s rm).1 (op2Plain s rm).2 s

/-- `LSL(S) Rd, Rm, #imm5`, T32.DPSR (R201). -/
def execLslImm32 (sf : Bool) (rd rm : Reg) (imm5 : BitVec 5) (s : State) : Result :=
  shiftTo (.lslImm32 sf rd rm imm5) sf rd rm .lsl imm5.toNat s

/-- `LSR(S) Rd, Rm, #imm5`, T32.DPSR (R200). -/
def execLsrImm32 (sf : Bool) (rd rm : Reg) (imm5 : BitVec 5) (s : State) : Result :=
  shiftTo (.lsrImm32 sf rd rm imm5) sf rd rm .lsr (decodeShift .lsr imm5).2 s

/-- `ASR(S) Rd, Rm, #imm5`, T32.DPSR (R199). -/
def execAsrImm32 (sf : Bool) (rd rm : Reg) (imm5 : BitVec 5) (s : State) : Result :=
  shiftTo (.asrImm32 sf rd rm imm5) sf rd rm .asr (decodeShift .asr imm5).2 s

/-- `ROR(S) Rd, Rm, #imm5`, T32.DPSR (R202). -/
def execRorImm32 (sf : Bool) (rd rm : Reg) (imm5 : BitVec 5) (s : State) : Result :=
  shiftTo (.rorImm32 sf rd rm imm5) sf rd rm .ror imm5.toNat s

/-- `RRX(S) Rd, Rm`, T32.DPSR (R203). -/
def execRrx (sf : Bool) (rd rm : Reg) (s : State) : Result :=
  shiftTo (.rrx sf rd rm) sf rd rm .rrx 1 s

/-- `MVN(S) Rd, Rm (, shift)`, T32.DPSR (R162). -/
def execMvnShift (sf : Bool) (rd rm : Reg) (ty : ShiftType) (imm5 : BitVec 5) (s : State) : Result :=
  logicalTo (.mvnShift sf rd rm ty imm5) sf rd (~~~(op2Reg s rm ty imm5).1) (op2Reg s rm ty imm5).2 s

/-! ## T32.SHREG: the shift length is the low byte of a register (30_encoding R116; 42_shift_operations R198) -/

/-- `LSL(S) Rd, Rm, Rs`, T32.SHREG (R201). -/
def execLslReg32 (sf : Bool) (rd rm rs : Reg) (s : State) : Result :=
  shiftTo (.lslReg32 sf rd rm rs) sf rd rm .lsl (shiftLength s rs) s

/-- `LSR(S) Rd, Rm, Rs`, T32.SHREG (R200). -/
def execLsrReg32 (sf : Bool) (rd rm rs : Reg) (s : State) : Result :=
  shiftTo (.lsrReg32 sf rd rm rs) sf rd rm .lsr (shiftLength s rs) s

/-- `ASR(S) Rd, Rm, Rs`, T32.SHREG (R199). -/
def execAsrReg32 (sf : Bool) (rd rm rs : Reg) (s : State) : Result :=
  shiftTo (.asrReg32 sf rd rm rs) sf rd rm .asr (shiftLength s rs) s

/-- `ROR(S) Rd, Rm, Rs`, T32.SHREG (R202). -/
def execRorReg32 (sf : Bool) (rd rm rs : Reg) (s : State) : Result :=
  shiftTo (.rorReg32 sf rd rm rs) sf rd rm .ror (shiftLength s rs) s

end Sys2Proof.Machine
end

