-- ==== Sys2Proof/Machine/LoadMultiple.lean ====
section
/-! DEFINITION. The multiple loads LDM, LDMDB and POP (43_load_store R224 to R227). They are not in `UnalignedOK` (20_memory R63), so
an unaligned start address always faults. LDM and POP are one step (20_memory R71). -/

namespace Sys2Proof.Machine

/-- `POP reglist`, T16.POP (R225). -/
def execPop16 (p : Bool) (list : BitVec 8) (s : State) : Result :=
  loadMultiple (.pop16 p list) (lowRegList list) p s.sp
    (some (.sp, s.sp + BitVec.ofNat 32 (multipleBytes (lowRegList list) p))) s

/-- `LDM Rn(!), reglist`, T16.LDM (R224). -/
def execLdm16 (rn : LowReg) (list : BitVec 8) (s : State) : Result :=
  loadMultiple (.ldm16 rn list) (lowRegList list) false (s.reg rn.reg)
    (if (lowRegList list).contains rn.reg then none
    else some (rn.reg, s.reg rn.reg + BitVec.ofNat 32 (multipleBytes (lowRegList list) false))) s

/-- `LDM Rn(!), reglist`, T32.LDM (R224). -/
def execLdm32 (w : Bool) (rn : Reg) (p m : Bool) (list : BitVec 13) (s : State) : Result :=
  loadMultiple (.ldm32 w rn p m list) (regList list m) p (s.reg rn)
    (if w then some (rn, s.reg rn + BitVec.ofNat 32 (multipleBytes (regList list m) p)) else none) s

/-- `LDMDB Rn(!), reglist`, T32.LDM (R224). -/
def execLdmdb (w : Bool) (rn : Reg) (p m : Bool) (list : BitVec 13) (s : State) : Result :=
  loadMultiple (.ldmdb w rn p m list) (regList list m) p (s.reg rn - BitVec.ofNat 32 (multipleBytes (regList list m) p))
    (if w then some (rn, s.reg rn - BitVec.ofNat 32 (multipleBytes (regList list m) p)) else none) s

/-- `POP.W reglist`, T32.LDM (R225). -/
def execPopW (p m : Bool) (list : BitVec 13) (s : State) : Result :=
  loadMultiple (.popW p m list) (regList list m) p s.sp
    (some (.sp, s.sp + BitVec.ofNat 32 (multipleBytes (regList list m) p))) s

/-- `POP.W (Rt)`, T32.POP1 (R225). -/
def execPopWOne (rt : Reg) (s : State) : Result :=
  if rt = .pc then loadMultiple (.popWOne rt) [] true s.sp (some (.sp, s.sp + 4#32)) s
  else loadMultiple (.popWOne rt) [rt] false s.sp (some (.sp, s.sp + 4#32)) s

end Sys2Proof.Machine
end

