-- ==== Sys2Proof/Machine/LoadStore.lean ====
section
/-! DEFINITION. The single loads and stores (43_load_store R210 to R223, R226). The unprivileged forms LDRT, LDRHT, LDRSHT, STRT and
STRHT differ from the others only in their addressing form, since the model has no permissions (R215; 20_memory R73). -/

namespace Sys2Proof.Machine

/-! ## 16-bit forms (30_encoding R114) -/

/-- `LDR Rt, label`, T16.LDRLIT (R214). -/
def execLdrLit16 (rt : LowReg) (imm8 : BitVec 8) (s : State) : Result :=
  loadWord (.ldrLit16 rt imm8) rt.reg (.literal (BitVec.ofNat 32 (4 * imm8.toNat))) s

/-- `STR Rt, [Rn, Rm]`, T16.LSREG (R220). -/
def execStrReg16 (rt rn rm : LowReg) (s : State) : Result :=
  store (.strReg16 rt rn rm) rt.reg (.register rn.reg rm.reg 0) .word 4 s

/-- `STRH Rt, [Rn, Rm]`, T16.LSREG (R222). -/
def execStrhReg16 (rt rn rm : LowReg) (s : State) : Result :=
  store (.strhReg16 rt rn rm) rt.reg (.register rn.reg rm.reg 0) .halfword 2 s

/-- `LDR Rt, [Rn, Rm]`, T16.LSREG (R214). -/
def execLdrReg16 (rt rn rm : LowReg) (s : State) : Result :=
  loadWord (.ldrReg16 rt rn rm) rt.reg (.register rn.reg rm.reg 0) s

/-- `LDRH Rt, [Rn, Rm]`, T16.LSREG (R216). -/
def execLdrhReg16 (rt rn rm : LowReg) (s : State) : Result :=
  loadHalf (.ldrhReg16 rt rn rm) rt.reg (.register rn.reg rm.reg 0) .zero s

/-- `LDRSH Rt, [Rn, Rm]`, T16.LSREG (R218). -/
def execLdrshReg16 (rt rn rm : LowReg) (s : State) : Result :=
  loadHalf (.ldrshReg16 rt rn rm) rt.reg (.register rn.reg rm.reg 0) .sign s

/-- `STR Rt, [Rn, #imm5*4]`, T16.LSIMM (R220). -/
def execStrImm16 (rt rn : LowReg) (imm5 : BitVec 5) (s : State) : Result :=
  store (.strImm16 rt rn imm5) rt.reg (.offset rn.reg (BitVec.ofNat 32 (4 * imm5.toNat))) .word 4 s

/-- `LDR Rt, [Rn, #imm5*4]`, T16.LSIMM (R214). -/
def execLdrImm16 (rt rn : LowReg) (imm5 : BitVec 5) (s : State) : Result :=
  loadWord (.ldrImm16 rt rn imm5) rt.reg (.offset rn.reg (BitVec.ofNat 32 (4 * imm5.toNat))) s

/-- `STRH Rt, [Rn, #imm5*2]`, T16.LSIMM (R222). -/
def execStrhImm16 (rt rn : LowReg) (imm5 : BitVec 5) (s : State) : Result :=
  store (.strhImm16 rt rn imm5) rt.reg (.offset rn.reg (BitVec.ofNat 32 (2 * imm5.toNat))) .halfword 2 s

/-- `LDRH Rt, [Rn, #imm5*2]`, T16.LSIMM (R216). -/
def execLdrhImm16 (rt rn : LowReg) (imm5 : BitVec 5) (s : State) : Result :=
  loadHalf (.ldrhImm16 rt rn imm5) rt.reg (.offset rn.reg (BitVec.ofNat 32 (2 * imm5.toNat))) .zero s

/-- `STR Rt, [SP, #imm8*4]`, T16.LSSP (R220). -/
def execStrSp16 (rt : LowReg) (imm8 : BitVec 8) (s : State) : Result :=
  store (.strSp16 rt imm8) rt.reg (.offset .sp (BitVec.ofNat 32 (4 * imm8.toNat))) .word 4 s

/-- `LDR Rt, [SP, #imm8*4]`, T16.LSSP (R214). -/
def execLdrSp16 (rt : LowReg) (imm8 : BitVec 8) (s : State) : Result :=
  loadWord (.ldrSp16 rt imm8) rt.reg (.offset .sp (BitVec.ofNat 32 (4 * imm8.toNat))) s

/-! ## 32-bit forms (30_encoding R116) -/

/-- `LDR Rt, [Rn, #imm12]`, T32.LS12 (R214). -/
def execLdrImm12 (rt rn : Reg) (imm12 : BitVec 12) (s : State) : Result :=
  loadWord (.ldrImm12 rt rn imm12) rt (.offset rn (imm12.setWidth 32)) s

/-- `LDR Rt, [Rn, #-imm8]`, T32.LS8 (R214). -/
def execLdrNeg8 (rt rn : Reg) (imm8 : BitVec 8) (s : State) : Result :=
  loadWord (.ldrNeg8 rt rn imm8) rt (.offset rn (signedOffset false imm8.toNat)) s

/-- `LDR Rt, [Rn, #±imm8]!`, T32.LS8 (R214). -/
def execLdrPre (rt rn : Reg) (u : Bool) (imm8 : BitVec 8) (s : State) : Result :=
  loadWord (.ldrPre rt rn u imm8) rt (.preIndexed rn (signedOffset u imm8.toNat)) s

/-- `LDR Rt, [Rn], #±imm8`, T32.LS8 (R214). -/
def execLdrPost (rt rn : Reg) (u : Bool) (imm8 : BitVec 8) (s : State) : Result :=
  loadWord (.ldrPost rt rn u imm8) rt (.postIndexed rn (signedOffset u imm8.toNat)) s

/-- `LDRT Rt, [Rn, #imm8]`, T32.LS8 (R215). -/
def execLdrt (rt rn : Reg) (imm8 : BitVec 8) (s : State) : Result :=
  loadWord (.ldrt rt rn imm8) rt (.offset rn (imm8.setWidth 32)) s

/-- `LDR Rt, [Rn, Rm (, LSL #imm2)]`, T32.LSR (R214). -/
def execLdrReg32 (rt rn rm : Reg) (imm2 : BitVec 2) (s : State) : Result :=
  loadWord (.ldrReg32 rt rn rm imm2) rt (.register rn rm imm2.toNat) s

/-- `LDR Rt, label`, T32.LSLIT (R214). -/
def execLdrLit32 (u : Bool) (rt : Reg) (imm12 : BitVec 12) (s : State) : Result :=
  loadWord (.ldrLit32 u rt imm12) rt (.literal (signedOffset u imm12.toNat)) s

/-- `LDRH Rt, [Rn, #imm12]`, T32.LS12 (R216). -/
def execLdrhImm12 (rt rn : Reg) (imm12 : BitVec 12) (s : State) : Result :=
  loadHalf (.ldrhImm12 rt rn imm12) rt (.offset rn (imm12.setWidth 32)) .zero s

/-- `LDRH Rt, [Rn, #-imm8]`, T32.LS8 (R216). -/
def execLdrhNeg8 (rt rn : Reg) (imm8 : BitVec 8) (s : State) : Result :=
  loadHalf (.ldrhNeg8 rt rn imm8) rt (.offset rn (signedOffset false imm8.toNat)) .zero s

/-- `LDRH Rt, [Rn, #±imm8]!`, T32.LS8 (R216). -/
def execLdrhPre (rt rn : Reg) (u : Bool) (imm8 : BitVec 8) (s : State) : Result :=
  loadHalf (.ldrhPre rt rn u imm8) rt (.preIndexed rn (signedOffset u imm8.toNat)) .zero s

/-- `LDRH Rt, [Rn], #±imm8`, T32.LS8 (R216). -/
def execLdrhPost (rt rn : Reg) (u : Bool) (imm8 : BitVec 8) (s : State) : Result :=
  loadHalf (.ldrhPost rt rn u imm8) rt (.postIndexed rn (signedOffset u imm8.toNat)) .zero s

/-- `LDRHT Rt, [Rn, #imm8]`, T32.LS8 (R217). -/
def execLdrht (rt rn : Reg) (imm8 : BitVec 8) (s : State) : Result :=
  loadHalf (.ldrht rt rn imm8) rt (.offset rn (imm8.setWidth 32)) .zero s

/-- `LDRH Rt, [Rn, Rm (, LSL #imm2)]`, T32.LSR (R216). -/
def execLdrhReg32 (rt rn rm : Reg) (imm2 : BitVec 2) (s : State) : Result :=
  loadHalf (.ldrhReg32 rt rn rm imm2) rt (.register rn rm imm2.toNat) .zero s

/-- `LDRH Rt, label`, T32.LSLIT (R216). -/
def execLdrhLit32 (u : Bool) (rt : Reg) (imm12 : BitVec 12) (s : State) : Result :=
  loadHalf (.ldrhLit32 u rt imm12) rt (.literal (signedOffset u imm12.toNat)) .zero s

/-- `LDRSH Rt, [Rn, #imm12]`, T32.LS12 (R218). -/
def execLdrshImm12 (rt rn : Reg) (imm12 : BitVec 12) (s : State) : Result :=
  loadHalf (.ldrshImm12 rt rn imm12) rt (.offset rn (imm12.setWidth 32)) .sign s

/-- `LDRSH Rt, [Rn, #-imm8]`, T32.LS8 (R218). -/
def execLdrshNeg8 (rt rn : Reg) (imm8 : BitVec 8) (s : State) : Result :=
  loadHalf (.ldrshNeg8 rt rn imm8) rt (.offset rn (signedOffset false imm8.toNat)) .sign s

/-- `LDRSH Rt, [Rn, #±imm8]!`, T32.LS8 (R218). -/
def execLdrshPre (rt rn : Reg) (u : Bool) (imm8 : BitVec 8) (s : State) : Result :=
  loadHalf (.ldrshPre rt rn u imm8) rt (.preIndexed rn (signedOffset u imm8.toNat)) .sign s

/-- `LDRSH Rt, [Rn], #±imm8`, T32.LS8 (R218). -/
def execLdrshPost (rt rn : Reg) (u : Bool) (imm8 : BitVec 8) (s : State) : Result :=
  loadHalf (.ldrshPost rt rn u imm8) rt (.postIndexed rn (signedOffset u imm8.toNat)) .sign s

/-- `LDRSHT Rt, [Rn, #imm8]`, T32.LS8 (R219). -/
def execLdrsht (rt rn : Reg) (imm8 : BitVec 8) (s : State) : Result :=
  loadHalf (.ldrsht rt rn imm8) rt (.offset rn (imm8.setWidth 32)) .sign s

/-- `LDRSH Rt, [Rn, Rm (, LSL #imm2)]`, T32.LSR (R218). -/
def execLdrshReg32 (rt rn rm : Reg) (imm2 : BitVec 2) (s : State) : Result :=
  loadHalf (.ldrshReg32 rt rn rm imm2) rt (.register rn rm imm2.toNat) .sign s

/-- `LDRSH Rt, label`, T32.LSLIT (R218). -/
def execLdrshLit32 (u : Bool) (rt : Reg) (imm12 : BitVec 12) (s : State) : Result :=
  loadHalf (.ldrshLit32 u rt imm12) rt (.literal (signedOffset u imm12.toNat)) .sign s

/-- `STR Rt, [Rn, #imm12]`, T32.LS12 (R220). -/
def execStrImm12 (rt rn : Reg) (imm12 : BitVec 12) (s : State) : Result :=
  store (.strImm12 rt rn imm12) rt (.offset rn (imm12.setWidth 32)) .word 4 s

/-- `STR Rt, [Rn, #-imm8]`, T32.LS8 (R220). -/
def execStrNeg8 (rt rn : Reg) (imm8 : BitVec 8) (s : State) : Result :=
  store (.strNeg8 rt rn imm8) rt (.offset rn (signedOffset false imm8.toNat)) .word 4 s

/-- `STR Rt, [Rn, #±imm8]!`, T32.LS8 (R220). -/
def execStrPre (rt rn : Reg) (u : Bool) (imm8 : BitVec 8) (s : State) : Result :=
  store (.strPre rt rn u imm8) rt (.preIndexed rn (signedOffset u imm8.toNat)) .word 4 s

/-- `STR Rt, [Rn], #±imm8`, T32.LS8 (R220). -/
def execStrPost (rt rn : Reg) (u : Bool) (imm8 : BitVec 8) (s : State) : Result :=
  store (.strPost rt rn u imm8) rt (.postIndexed rn (signedOffset u imm8.toNat)) .word 4 s

/-- `STRT Rt, [Rn, #imm8]`, T32.LS8 (R221). -/
def execStrt (rt rn : Reg) (imm8 : BitVec 8) (s : State) : Result :=
  store (.strt rt rn imm8) rt (.offset rn (imm8.setWidth 32)) .word 4 s

/-- `STR Rt, [Rn, Rm (, LSL #imm2)]`, T32.LSR (R220). -/
def execStrReg32 (rt rn rm : Reg) (imm2 : BitVec 2) (s : State) : Result :=
  store (.strReg32 rt rn rm imm2) rt (.register rn rm imm2.toNat) .word 4 s

/-- `STRH Rt, [Rn, #imm12]`, T32.LS12 (R222). -/
def execStrhImm12 (rt rn : Reg) (imm12 : BitVec 12) (s : State) : Result :=
  store (.strhImm12 rt rn imm12) rt (.offset rn (imm12.setWidth 32)) .halfword 2 s

/-- `STRH Rt, [Rn, #-imm8]`, T32.LS8 (R222). -/
def execStrhNeg8 (rt rn : Reg) (imm8 : BitVec 8) (s : State) : Result :=
  store (.strhNeg8 rt rn imm8) rt (.offset rn (signedOffset false imm8.toNat)) .halfword 2 s

/-- `STRH Rt, [Rn, #±imm8]!`, T32.LS8 (R222). -/
def execStrhPre (rt rn : Reg) (u : Bool) (imm8 : BitVec 8) (s : State) : Result :=
  store (.strhPre rt rn u imm8) rt (.preIndexed rn (signedOffset u imm8.toNat)) .halfword 2 s

/-- `STRH Rt, [Rn], #±imm8`, T32.LS8 (R222). -/
def execStrhPost (rt rn : Reg) (u : Bool) (imm8 : BitVec 8) (s : State) : Result :=
  store (.strhPost rt rn u imm8) rt (.postIndexed rn (signedOffset u imm8.toNat)) .halfword 2 s

/-- `STRHT Rt, [Rn, #imm8]`, T32.LS8 (R223). -/
def execStrht (rt rn : Reg) (imm8 : BitVec 8) (s : State) : Result :=
  store (.strht rt rn imm8) rt (.offset rn (imm8.setWidth 32)) .halfword 2 s

/-- `STRH Rt, [Rn, Rm (, LSL #imm2)]`, T32.LSR (R222). -/
def execStrhReg32 (rt rn rm : Reg) (imm2 : BitVec 2) (s : State) : Result :=
  store (.strhReg32 rt rn rm imm2) rt (.register rn rm imm2.toNat) .halfword 2 s

end Sys2Proof.Machine
end

