-- ==== Sys2Proof/Machine/Special.lean ====
section
/-! DEFINITION. The twelve CMSIS functions of Table 25 as MRS and MSR (40_special_register_access R130 to R144, R146). -/

namespace Sys2Proof.Machine

/-- `get_PRIMASK = MRS Rd, PRIMASK`, T32.MRS (R133). -/
def execGetPrimask (rd : Reg) (s : State) : Result :=
  readFunction (.getPrimask rd) rd .primask s

/-- `set_PRIMASK = MSR PRIMASK, Rn`, T32.MSR (R134). -/
def execSetPrimask (rn : Reg) (s : State) : Result :=
  writeFunction (.setPrimask rn) rn .primask s

/-- `get_FAULTMASK = MRS Rd, FAULTMASK`, T32.MRS (R135). -/
def execGetFaultmask (rd : Reg) (s : State) : Result :=
  readFunction (.getFaultmask rd) rd .faultmask s

/-- `set_FAULTMASK = MSR FAULTMASK, Rn`, T32.MSR (R136). -/
def execSetFaultmask (rn : Reg) (s : State) : Result :=
  writeFunction (.setFaultmask rn) rn .faultmask s

/-- `get_BASEPRI = MRS Rd, BASEPRI`, T32.MRS (R137). -/
def execGetBasepri (rd : Reg) (s : State) : Result :=
  readFunction (.getBasepri rd) rd .basepri s

/-- `set_BASEPRI = MSR BASEPRI, Rn`, T32.MSR (R138). -/
def execSetBasepri (rn : Reg) (s : State) : Result :=
  writeFunction (.setBasepri rn) rn .basepri s

/-- `get_CONTROL = MRS Rd, CONTROL`, T32.MRS (R139). -/
def execGetControl (rd : Reg) (s : State) : Result :=
  readFunction (.getControl rd) rd .control s

/-- `set_CONTROL = MSR CONTROL, Rn`, T32.MSR (R140). -/
def execSetControl (rn : Reg) (s : State) : Result :=
  writeFunction (.setControl rn) rn .control s

/-- `get_MSP = MRS Rd, MSP`, T32.MRS (R141). -/
def execGetMsp (rd : Reg) (s : State) : Result :=
  readFunction (.getMsp rd) rd .msp s

/-- `set_MSP = MSR MSP, Rn`, T32.MSR (R142). -/
def execSetMsp (rn : Reg) (s : State) : Result :=
  writeFunction (.setMsp rn) rn .msp s

/-- `get_PSP = MRS Rd, PSP`, T32.MRS (R143). -/
def execGetPsp (rd : Reg) (s : State) : Result :=
  readFunction (.getPsp rd) rd .psp s

/-- `set_PSP = MSR PSP, Rn`, T32.MSR (R144). -/
def execSetPsp (rn : Reg) (s : State) : Result :=
  writeFunction (.setPsp rn) rn .psp s

end Sys2Proof.Machine
end

