-- ==== Sys2Proof/Machine/Dispatch.lean ====
section
/-! DEFINITION. The meaning of each instruction: one arm per constructor, each one direct call. -/

namespace Sys2Proof.Machine

def exec (i : Instr) (s : State) : Host.Outcome State Fault Refusal :=
  match i with
  | .lslsImm16 rd rm imm5 => Sys2Proof.Machine.execLslsImm16 rd rm imm5 s
  | .movsReg16 rd rm => Sys2Proof.Machine.execMovsReg16 rd rm s
  | .lsrsImm16 rd rm imm5 => Sys2Proof.Machine.execLsrsImm16 rd rm imm5 s
  | .asrsImm16 rd rm imm5 => Sys2Proof.Machine.execAsrsImm16 rd rm imm5 s
  | .addsReg16 rd rn rm => Sys2Proof.Machine.execAddsReg16 rd rn rm s
  | .addsImm3 rd rn imm3 => Sys2Proof.Machine.execAddsImm3 rd rn imm3 s
  | .movsImm8 rd imm8 => Sys2Proof.Machine.execMovsImm8 rd imm8 s
  | .cmpImm8 rn imm8 => Sys2Proof.Machine.execCmpImm8 rn imm8 s
  | .addsImm8 rdn imm8 => Sys2Proof.Machine.execAddsImm8 rdn imm8 s
  | .andsReg16 rdn rm => Sys2Proof.Machine.execAndsReg16 rdn rm s
  | .eorsReg16 rdn rm => Sys2Proof.Machine.execEorsReg16 rdn rm s
  | .lslsReg16 rdn rs => Sys2Proof.Machine.execLslsReg16 rdn rs s
  | .lsrsReg16 rdn rs => Sys2Proof.Machine.execLsrsReg16 rdn rs s
  | .asrsReg16 rdn rs => Sys2Proof.Machine.execAsrsReg16 rdn rs s
  | .rorsReg16 rdn rs => Sys2Proof.Machine.execRorsReg16 rdn rs s
  | .tstReg16 rn rm => Sys2Proof.Machine.execTstReg16 rn rm s
  | .rsbsZero16 rd rn => Sys2Proof.Machine.execRsbsZero16 rd rn s
  | .cmpReg16 rn rm => Sys2Proof.Machine.execCmpReg16 rn rm s
  | .cmnReg16 rn rm => Sys2Proof.Machine.execCmnReg16 rn rm s
  | .orrsReg16 rdn rm => Sys2Proof.Machine.execOrrsReg16 rdn rm s
  | .bicsReg16 rdn rm => Sys2Proof.Machine.execBicsReg16 rdn rm s
  | .mvnsReg16 rd rm => Sys2Proof.Machine.execMvnsReg16 rd rm s
  | .addHigh rdn rm => Sys2Proof.Machine.execAddHigh rdn rm s
  | .cmpHigh rn rm => Sys2Proof.Machine.execCmpHigh rn rm s
  | .movHigh rd rm => Sys2Proof.Machine.execMovHigh rd rm s
  | .bx rm => Sys2Proof.Machine.execBx rm s
  | .blx rm => Sys2Proof.Machine.execBlx rm s
  | .ldrLit16 rt imm8 => Sys2Proof.Machine.execLdrLit16 rt imm8 s
  | .strReg16 rt rn rm => Sys2Proof.Machine.execStrReg16 rt rn rm s
  | .strhReg16 rt rn rm => Sys2Proof.Machine.execStrhReg16 rt rn rm s
  | .ldrReg16 rt rn rm => Sys2Proof.Machine.execLdrReg16 rt rn rm s
  | .ldrhReg16 rt rn rm => Sys2Proof.Machine.execLdrhReg16 rt rn rm s
  | .ldrshReg16 rt rn rm => Sys2Proof.Machine.execLdrshReg16 rt rn rm s
  | .strImm16 rt rn imm5 => Sys2Proof.Machine.execStrImm16 rt rn imm5 s
  | .ldrImm16 rt rn imm5 => Sys2Proof.Machine.execLdrImm16 rt rn imm5 s
  | .strhImm16 rt rn imm5 => Sys2Proof.Machine.execStrhImm16 rt rn imm5 s
  | .ldrhImm16 rt rn imm5 => Sys2Proof.Machine.execLdrhImm16 rt rn imm5 s
  | .strSp16 rt imm8 => Sys2Proof.Machine.execStrSp16 rt imm8 s
  | .ldrSp16 rt imm8 => Sys2Proof.Machine.execLdrSp16 rt imm8 s
  | .cbz rn imm6 => Sys2Proof.Machine.execCbz rn imm6 s
  | .cbnz rn imm6 => Sys2Proof.Machine.execCbnz rn imm6 s
  | .pop16 p list => Sys2Proof.Machine.execPop16 p list s
  | .it firstcond mask => Sys2Proof.Machine.execIt firstcond mask s
  | .ldm16 rn list => Sys2Proof.Machine.execLdm16 rn list s
  | .bCond16 c imm8 => Sys2Proof.Machine.execBCond16 c imm8 s
  | .b16 imm11 => Sys2Proof.Machine.execB16 imm11 s
  | .andConst sf rd rn imm12 => Sys2Proof.Machine.execAndConst sf rd rn imm12 s
  | .bicConst sf rd rn imm12 => Sys2Proof.Machine.execBicConst sf rd rn imm12 s
  | .orrConst sf rd rn imm12 => Sys2Proof.Machine.execOrrConst sf rd rn imm12 s
  | .ornConst sf rd rn imm12 => Sys2Proof.Machine.execOrnConst sf rd rn imm12 s
  | .eorConst sf rd rn imm12 => Sys2Proof.Machine.execEorConst sf rd rn imm12 s
  | .addConst sf rd rn imm12 => Sys2Proof.Machine.execAddConst sf rd rn imm12 s
  | .rsbConst sf rd rn imm12 => Sys2Proof.Machine.execRsbConst sf rd rn imm12 s
  | .tstConst rn imm12 => Sys2Proof.Machine.execTstConst rn imm12 s
  | .teqConst rn imm12 => Sys2Proof.Machine.execTeqConst rn imm12 s
  | .cmnConst rn imm12 => Sys2Proof.Machine.execCmnConst rn imm12 s
  | .cmpConst rn imm12 => Sys2Proof.Machine.execCmpConst rn imm12 s
  | .movConst sf rd imm12 => Sys2Proof.Machine.execMovConst sf rd imm12 s
  | .mvnConst sf rd imm12 => Sys2Proof.Machine.execMvnConst sf rd imm12 s
  | .andShift sf rd rn rm ty imm5 => Sys2Proof.Machine.execAndShift sf rd rn rm ty imm5 s
  | .bicShift sf rd rn rm ty imm5 => Sys2Proof.Machine.execBicShift sf rd rn rm ty imm5 s
  | .orrShift sf rd rn rm ty imm5 => Sys2Proof.Machine.execOrrShift sf rd rn rm ty imm5 s
  | .ornShift sf rd rn rm ty imm5 => Sys2Proof.Machine.execOrnShift sf rd rn rm ty imm5 s
  | .eorShift sf rd rn rm ty imm5 => Sys2Proof.Machine.execEorShift sf rd rn rm ty imm5 s
  | .addShift sf rd rn rm ty imm5 => Sys2Proof.Machine.execAddShift sf rd rn rm ty imm5 s
  | .rsbShift sf rd rn rm ty imm5 => Sys2Proof.Machine.execRsbShift sf rd rn rm ty imm5 s
  | .tstShift rn rm ty imm5 => Sys2Proof.Machine.execTstShift rn rm ty imm5 s
  | .teqShift rn rm ty imm5 => Sys2Proof.Machine.execTeqShift rn rm ty imm5 s
  | .cmnShift rn rm ty imm5 => Sys2Proof.Machine.execCmnShift rn rm ty imm5 s
  | .cmpShift rn rm ty imm5 => Sys2Proof.Machine.execCmpShift rn rm ty imm5 s
  | .movReg32 sf rd rm => Sys2Proof.Machine.execMovReg32 sf rd rm s
  | .lslImm32 sf rd rm imm5 => Sys2Proof.Machine.execLslImm32 sf rd rm imm5 s
  | .lsrImm32 sf rd rm imm5 => Sys2Proof.Machine.execLsrImm32 sf rd rm imm5 s
  | .asrImm32 sf rd rm imm5 => Sys2Proof.Machine.execAsrImm32 sf rd rm imm5 s
  | .rorImm32 sf rd rm imm5 => Sys2Proof.Machine.execRorImm32 sf rd rm imm5 s
  | .rrx sf rd rm => Sys2Proof.Machine.execRrx sf rd rm s
  | .mvnShift sf rd rm ty imm5 => Sys2Proof.Machine.execMvnShift sf rd rm ty imm5 s
  | .lslReg32 sf rd rm rs => Sys2Proof.Machine.execLslReg32 sf rd rm rs s
  | .lsrReg32 sf rd rm rs => Sys2Proof.Machine.execLsrReg32 sf rd rm rs s
  | .asrReg32 sf rd rm rs => Sys2Proof.Machine.execAsrReg32 sf rd rm rs s
  | .rorReg32 sf rd rm rs => Sys2Proof.Machine.execRorReg32 sf rd rm rs s
  | .bCond32 c imm20 => Sys2Proof.Machine.execBCond32 c imm20 s
  | .b32 imm24 => Sys2Proof.Machine.execB32 imm24 s
  | .bl imm24 => Sys2Proof.Machine.execBl imm24 s
  | .getPrimask rd => Sys2Proof.Machine.execGetPrimask rd s
  | .setPrimask rn => Sys2Proof.Machine.execSetPrimask rn s
  | .getFaultmask rd => Sys2Proof.Machine.execGetFaultmask rd s
  | .setFaultmask rn => Sys2Proof.Machine.execSetFaultmask rn s
  | .getBasepri rd => Sys2Proof.Machine.execGetBasepri rd s
  | .setBasepri rn => Sys2Proof.Machine.execSetBasepri rn s
  | .getControl rd => Sys2Proof.Machine.execGetControl rd s
  | .setControl rn => Sys2Proof.Machine.execSetControl rn s
  | .getMsp rd => Sys2Proof.Machine.execGetMsp rd s
  | .setMsp rn => Sys2Proof.Machine.execSetMsp rn s
  | .getPsp rd => Sys2Proof.Machine.execGetPsp rd s
  | .setPsp rn => Sys2Proof.Machine.execSetPsp rn s
  | .ldrImm12 rt rn imm12 => Sys2Proof.Machine.execLdrImm12 rt rn imm12 s
  | .ldrNeg8 rt rn imm8 => Sys2Proof.Machine.execLdrNeg8 rt rn imm8 s
  | .ldrPre rt rn u imm8 => Sys2Proof.Machine.execLdrPre rt rn u imm8 s
  | .ldrPost rt rn u imm8 => Sys2Proof.Machine.execLdrPost rt rn u imm8 s
  | .ldrt rt rn imm8 => Sys2Proof.Machine.execLdrt rt rn imm8 s
  | .ldrReg32 rt rn rm imm2 => Sys2Proof.Machine.execLdrReg32 rt rn rm imm2 s
  | .ldrLit32 u rt imm12 => Sys2Proof.Machine.execLdrLit32 u rt imm12 s
  | .ldrhImm12 rt rn imm12 => Sys2Proof.Machine.execLdrhImm12 rt rn imm12 s
  | .ldrhNeg8 rt rn imm8 => Sys2Proof.Machine.execLdrhNeg8 rt rn imm8 s
  | .ldrhPre rt rn u imm8 => Sys2Proof.Machine.execLdrhPre rt rn u imm8 s
  | .ldrhPost rt rn u imm8 => Sys2Proof.Machine.execLdrhPost rt rn u imm8 s
  | .ldrht rt rn imm8 => Sys2Proof.Machine.execLdrht rt rn imm8 s
  | .ldrhReg32 rt rn rm imm2 => Sys2Proof.Machine.execLdrhReg32 rt rn rm imm2 s
  | .ldrhLit32 u rt imm12 => Sys2Proof.Machine.execLdrhLit32 u rt imm12 s
  | .ldrshImm12 rt rn imm12 => Sys2Proof.Machine.execLdrshImm12 rt rn imm12 s
  | .ldrshNeg8 rt rn imm8 => Sys2Proof.Machine.execLdrshNeg8 rt rn imm8 s
  | .ldrshPre rt rn u imm8 => Sys2Proof.Machine.execLdrshPre rt rn u imm8 s
  | .ldrshPost rt rn u imm8 => Sys2Proof.Machine.execLdrshPost rt rn u imm8 s
  | .ldrsht rt rn imm8 => Sys2Proof.Machine.execLdrsht rt rn imm8 s
  | .ldrshReg32 rt rn rm imm2 => Sys2Proof.Machine.execLdrshReg32 rt rn rm imm2 s
  | .ldrshLit32 u rt imm12 => Sys2Proof.Machine.execLdrshLit32 u rt imm12 s
  | .strImm12 rt rn imm12 => Sys2Proof.Machine.execStrImm12 rt rn imm12 s
  | .strNeg8 rt rn imm8 => Sys2Proof.Machine.execStrNeg8 rt rn imm8 s
  | .strPre rt rn u imm8 => Sys2Proof.Machine.execStrPre rt rn u imm8 s
  | .strPost rt rn u imm8 => Sys2Proof.Machine.execStrPost rt rn u imm8 s
  | .strt rt rn imm8 => Sys2Proof.Machine.execStrt rt rn imm8 s
  | .strReg32 rt rn rm imm2 => Sys2Proof.Machine.execStrReg32 rt rn rm imm2 s
  | .strhImm12 rt rn imm12 => Sys2Proof.Machine.execStrhImm12 rt rn imm12 s
  | .strhNeg8 rt rn imm8 => Sys2Proof.Machine.execStrhNeg8 rt rn imm8 s
  | .strhPre rt rn u imm8 => Sys2Proof.Machine.execStrhPre rt rn u imm8 s
  | .strhPost rt rn u imm8 => Sys2Proof.Machine.execStrhPost rt rn u imm8 s
  | .strht rt rn imm8 => Sys2Proof.Machine.execStrht rt rn imm8 s
  | .strhReg32 rt rn rm imm2 => Sys2Proof.Machine.execStrhReg32 rt rn rm imm2 s
  | .ldm32 w rn p m list => Sys2Proof.Machine.execLdm32 w rn p m list s
  | .ldmdb w rn p m list => Sys2Proof.Machine.execLdmdb w rn p m list s
  | .popW p m list => Sys2Proof.Machine.execPopW p m list s
  | .popWOne rt => Sys2Proof.Machine.execPopWOne rt s

end Sys2Proof.Machine
end

