-- ==== Sys2Proof/Machine/Fetch.lean ====
section
/-! DEFINITION. Fetching and decoding the instruction at the PC (20_memory R68, R69; 30_encoding R93, R104), the end of a run
(00_scope R10), and loading a program. -/

namespace Sys2Proof.Machine

/-- The run has ended: the next instruction's address is `cfg.haltAddr` (00_scope R10; 92_eei_decisions D18). -/
def halted (s : State) : Bool := decide (s.pc = s.cfg.haltAddr)

/-- Fetch `n` bytes at address `a` (20_memory R69, R72; 10_state R26). -/
def fetchAt (a n : Nat) (s : State) : Attempt (List Byte) :=
  if addressCount < a + n then .refused .addressTop
  else if !s.cfg.admits .fetch a n then .refused (.fetchNotAdmitted a)
  else .next (s.mem.readBytes a n)

/-- The bytes of the instruction at the PC: two, and two more if the first halfword begins a 32-bit instruction
(30_encoding R93). -/
def fetchBytes (s : State) : Attempt (List Byte) :=
  andThen (fetchAt s.pc.toNat 2 s) fun first =>
    match first with
    | [b0, b1] =>
      if is32 (halfOfBytes b0 b1) then andThen (fetchAt (s.pc.toNat + 2) 2 s) fun second => .next (first ++ second)
      else .next first
    | _ => .refused (.invalidEncoding .truncated)

/-- Decode the instruction at the PC; a pattern that is no instruction is refused (30_encoding R104). -/
def fetchInstr (s : State) : Attempt Instr :=
  andThen (fetchBytes s) fun bs =>
    match decode bs with
    | .ok (i, _) => .next i
    | .error e => .refused (.invalidEncoding e)

/-- Load bytes at the PC: they are stored there, the launch memory admits their fetch (a fetch region is added only where it
does not already), and the PC is not the halt address (whose bit[0] is inverted only where it was, so that it is the address
of no instruction). -/
def placeProgram (bs : List Byte) (s : State) : State :=
  { s with
    mem := s.mem.writeBytes s.pc.toNat (bs.take (addressCount - s.pc.toNat))
    cfg := { s.cfg with
      regions :=
        if s.cfg.admits .fetch s.pc.toNat bs.length then s.cfg.regions
        else { range := { base := s.pc.toNat, size := bs.length }, read := false, write := false, exec := true } ::
          s.cfg.regions
      haltAddr := if halted s then s.cfg.haltAddr ^^^ 1#32 else s.cfg.haltAddr } }

end Sys2Proof.Machine
end

