-- ==== Sys2Proof/Machine/Step.lean ====
section
/-! DEFINITION. One step of the machine, and placing an instruction where the step fetches. Fetching itself is in
Machine/Fetch.lean. -/

namespace Sys2Proof.Machine

/-- One step (00_scope R10). At `cfg.haltAddr` the run has ended and the instruction there is not executed: the final state
stays as it is (notes/assumptions/8.md). Else the instruction at the PC is fetched, decoded and executed. -/
def step (s : State) : Host.Outcome State Fault Refusal :=
  if halted s then .next s
  else andThen (fetchInstr s) fun i => exec i s

/-- `s` with the instruction that spec/opcode_table.json numbers as the word `w` of `nbits` bits loaded where `step` fetches
next: its bytes at the PC, those memory cells admitting the fetch, and the PC not the halt address (the load of a program from
outside the machine, 70_reset_and_hazards R300; notes/assumptions/9.md). -/
def State.withFetchWord (s : State) (nbits w : Nat) : State :=
  placeProgram (tableBytes nbits w) s

end Sys2Proof.Machine
end

