-- ==== Sys2Proof/Safety.lean ====
section
/-! DEFINITION. What counts as a good state and a good run, and the vocabulary of the claims: the invariant of the machine,
what each instruction may write (its registers, its flags, its bytes of memory) as tables over the syntax, the bytes of a
value in memory, when an access goes through, and when an instruction is ready to run. Nothing in Machine/ uses this file. -/

namespace Sys2Proof.Machine

/-! ## Good states and runs -/

/-- The invariant of the machine: what every step keeps. -/
structure State.Inv (s : State) : Prop where
  /-- Memory is in its canonical form. -/
  mem_wf : s.mem.wf = true
  /-- An instruction address is even (10_state R23). -/
  pc_even : s.pc.getLsbD 0 = false
  /-- Bits[1:0] of MSP read as zero (10_state R21, R36). -/
  msp_aligned : s.msp &&& 3#32 = 0#32
  /-- Bits[1:0] of PSP read as zero (10_state R21, R37). -/
  psp_aligned : s.psp &&& 3#32 = 0#32
  /-- PRIMASK has bit[0] only (10_state R32). -/
  primask_bits : s.primask &&& 0xFFFFFFFE#32 = 0#32
  /-- FAULTMASK has bit[0] only (10_state R33). -/
  faultmask_bits : s.faultmask &&& 0xFFFFFFFE#32 = 0#32
  /-- BASEPRI has the top `prioBits` bits of bits[7:0] only (10_state R34). -/
  basepri_bits : s.basepri &&& ~~~prioMask s.cfg.prioBits = 0#32
  /-- CONTROL has bits[1:0] and, with `hasFP`, bit[2] only (10_state R35). -/
  control_bits : s.control &&& ~~~controlMask s.cfg.hasFP = 0#32
  /-- An IT block has at most four instructions (44_branch_and_conditional R244). -/
  it_length : s.itstate.length ≤ 4

/-- The run has its final state here (00_scope R10). -/
def State.final (s : State) : Prop := halted s = true

/-- `n` steps from `s` on meet neither a fault nor a refusal. -/
def State.runsFor (n : Nat) (s : State) : Prop :=
  match n with
  | 0 => True
  | k + 1 => ∃ t, step s = .next t ∧ State.runsFor k t

end Sys2Proof.Machine

namespace Sys2Proof

open Machine

/-! ## What an instruction may write -/

/-- The flags an instruction may write (10_state R29; 41_operand2_data_processing R160). -/
inductive FlagsWritten where
  | none | nzc | nzcv
deriving DecidableEq, Repr

/-- The flags if the instruction sets them. -/
def FlagsWritten.onlyIf (b : Bool) (f : FlagsWritten) : FlagsWritten := if b then f else .none

/-- The flags each instruction writes when it executes; `outside` says that it stands outside an IT block
(41_operand2_data_processing R158 to R173; 42_shift_operations R197; 30_encoding R118; 40_special_register_access R132;
43_load_store section 0; 44_branch_and_conditional R244 to R252). -/
def Instr.flagsWritten (i : Instr) (outside : Bool) : FlagsWritten :=
  match i with
  | .lslsImm16 .. | .lsrsImm16 .. | .asrsImm16 .. | .movsImm8 .. | .andsReg16 .. | .eorsReg16 .. | .lslsReg16 ..
  | .lsrsReg16 .. | .asrsReg16 .. | .rorsReg16 .. | .orrsReg16 .. | .bicsReg16 .. | .mvnsReg16 .. => .onlyIf outside .nzc
  | .movsReg16 .. | .tstReg16 .. => .nzc
  | .addsReg16 .. | .addsImm3 .. | .addsImm8 .. | .rsbsZero16 .. => .onlyIf outside .nzcv
  | .cmpImm8 .. | .cmpReg16 .. | .cmnReg16 .. | .cmpHigh .. => .nzcv
  | .addHigh .. | .movHigh .. => .none
  | .andConst sf .. | .bicConst sf .. | .orrConst sf .. | .ornConst sf .. | .eorConst sf .. | .movConst sf ..
  | .mvnConst sf .. => .onlyIf sf .nzc
  | .addConst sf .. | .rsbConst sf .. => .onlyIf sf .nzcv
  | .tstConst .. | .teqConst .. | .tstShift .. | .teqShift .. => .nzc
  | .cmnConst .. | .cmpConst .. | .cmnShift .. | .cmpShift .. => .nzcv
  | .andShift sf .. | .bicShift sf .. | .orrShift sf .. | .ornShift sf .. | .eorShift sf .. | .movReg32 sf ..
  | .mvnShift sf .. => .onlyIf sf .nzc
  | .addShift sf .. | .rsbShift sf .. => .onlyIf sf .nzcv
  | .lslImm32 sf .. | .lsrImm32 sf .. | .asrImm32 sf .. | .rorImm32 sf .. | .rrx sf .. | .lslReg32 sf ..
  | .lsrReg32 sf .. | .asrReg32 sf .. | .rorReg32 sf .. => .onlyIf sf .nzc
  | .bx .. | .blx .. | .cbz .. | .cbnz .. | .it .. | .bCond16 .. | .b16 .. | .bCond32 .. | .b32 .. | .bl .. => .none
  | .getPrimask .. | .setPrimask .. | .getFaultmask .. | .setFaultmask .. | .getBasepri .. | .setBasepri ..
  | .getControl .. | .setControl .. | .getMsp .. | .setMsp .. | .getPsp .. | .setPsp .. => .none
  | .ldrLit16 .. | .ldrReg16 .. | .ldrImm16 .. | .ldrSp16 .. | .ldrImm12 .. | .ldrNeg8 .. | .ldrPre .. | .ldrPost ..
  | .ldrt .. | .ldrReg32 .. | .ldrLit32 .. => .none
  | .ldrhReg16 .. | .ldrhImm16 .. | .ldrhImm12 .. | .ldrhNeg8 .. | .ldrhPre .. | .ldrhPost .. | .ldrht ..
  | .ldrhReg32 .. | .ldrhLit32 .. => .none
  | .ldrshReg16 .. | .ldrshImm12 .. | .ldrshNeg8 .. | .ldrshPre .. | .ldrshPost .. | .ldrsht .. | .ldrshReg32 ..
  | .ldrshLit32 .. => .none
  | .strReg16 .. | .strImm16 .. | .strSp16 .. | .strImm12 .. | .strNeg8 .. | .strPre .. | .strPost .. | .strt ..
  | .strReg32 .. => .none
  | .strhReg16 .. | .strhImm16 .. | .strhImm12 .. | .strhNeg8 .. | .strhPre .. | .strhPost .. | .strht ..
  | .strhReg32 .. => .none
  | .pop16 .. | .ldm16 .. | .ldm32 .. | .ldmdb .. | .popW .. | .popWOne .. => .none

/-- The registers other than the PC that an instruction may write: its destination, the base register of a writeback form,
the registers of a list, SP for POP, LR for BL and BLX. A write of MSP, PSP or CONTROL can change what SP reads as. -/
def Instr.dests (i : Instr) : List Reg :=
  match i with
  | .lslsImm16 rd _ _ | .movsReg16 rd _ | .lsrsImm16 rd _ _ | .asrsImm16 rd _ _ | .addsReg16 rd _ _ | .addsImm3 rd _ _
  | .movsImm8 rd _ | .addsImm8 rd _ | .andsReg16 rd _ | .eorsReg16 rd _ | .lslsReg16 rd _ | .lsrsReg16 rd _
  | .asrsReg16 rd _ | .rorsReg16 rd _ | .rsbsZero16 rd _ | .orrsReg16 rd _ | .bicsReg16 rd _ | .mvnsReg16 rd _ => [rd.reg]
  | .cmpImm8 .. | .tstReg16 .. | .cmpReg16 .. | .cmnReg16 .. | .cmpHigh .. => []
  | .addHigh rd _ | .movHigh rd _ => [rd]
  | .andConst _ rd _ _ | .bicConst _ rd _ _ | .orrConst _ rd _ _ | .ornConst _ rd _ _ | .eorConst _ rd _ _
  | .addConst _ rd _ _ | .rsbConst _ rd _ _ => [rd]
  | .movConst _ rd _ | .mvnConst _ rd _ => [rd]
  | .tstConst .. | .teqConst .. | .cmnConst .. | .cmpConst .. | .tstShift .. | .teqShift .. | .cmnShift ..
  | .cmpShift .. => []
  | .andShift _ rd _ _ _ _ | .bicShift _ rd _ _ _ _ | .orrShift _ rd _ _ _ _ | .ornShift _ rd _ _ _ _
  | .eorShift _ rd _ _ _ _ | .addShift _ rd _ _ _ _ | .rsbShift _ rd _ _ _ _ => [rd]
  | .movReg32 _ rd _ | .rrx _ rd _ => [rd]
  | .mvnShift _ rd _ _ _ => [rd]
  | .lslImm32 _ rd _ _ | .lsrImm32 _ rd _ _ | .asrImm32 _ rd _ _ | .rorImm32 _ rd _ _ => [rd]
  | .lslReg32 _ rd _ _ | .lsrReg32 _ rd _ _ | .asrReg32 _ rd _ _ | .rorReg32 _ rd _ _ => [rd]
  | .bx .. | .cbz .. | .cbnz .. | .it .. | .bCond16 .. | .b16 .. | .bCond32 .. | .b32 .. => []
  | .blx .. | .bl .. => [.lr]
  | .getPrimask rd | .getFaultmask rd | .getBasepri rd | .getControl rd | .getMsp rd | .getPsp rd => [rd]
  | .setPrimask .. | .setFaultmask .. | .setBasepri .. => []
  | .setControl .. | .setMsp .. | .setPsp .. => [.sp]
  | .ldrLit16 rt _ => [rt.reg]
  | .ldrReg16 rt _ _ | .ldrhReg16 rt _ _ | .ldrshReg16 rt _ _ => [rt.reg]
  | .ldrImm16 rt _ _ | .ldrhImm16 rt _ _ => [rt.reg]
  | .ldrSp16 rt _ => [rt.reg]
  | .ldrImm12 rt _ _ | .ldrhImm12 rt _ _ | .ldrshImm12 rt _ _ => [rt]
  | .ldrNeg8 rt _ _ | .ldrhNeg8 rt _ _ | .ldrshNeg8 rt _ _ | .ldrt rt _ _ | .ldrht rt _ _ | .ldrsht rt _ _ => [rt]
  | .ldrPre rt rn _ _ | .ldrPost rt rn _ _ | .ldrhPre rt rn _ _ | .ldrhPost rt rn _ _ | .ldrshPre rt rn _ _
  | .ldrshPost rt rn _ _ => [rt, rn]
  | .ldrReg32 rt _ _ _ | .ldrhReg32 rt _ _ _ | .ldrshReg32 rt _ _ _ => [rt]
  | .ldrLit32 _ rt _ | .ldrhLit32 _ rt _ | .ldrshLit32 _ rt _ => [rt]
  | .strReg16 .. | .strImm16 .. | .strSp16 .. | .strImm12 .. | .strNeg8 .. | .strt .. | .strReg32 .. => []
  | .strhReg16 .. | .strhImm16 .. | .strhImm12 .. | .strhNeg8 .. | .strht .. | .strhReg32 .. => []
  | .strPre _ rn _ _ | .strPost _ rn _ _ | .strhPre _ rn _ _ | .strhPost _ rn _ _ => [rn]
  | .pop16 _ list => .sp :: lowRegList list
  | .ldm16 rn list => rn.reg :: lowRegList list
  | .ldm32 w rn _ m list | .ldmdb w rn _ m list => (if w then [rn] else []) ++ regList list m
  | .popW _ m list => .sp :: regList list m
  | .popWOne rt => [.sp, rt]

/-- The access of a single load or store: what it does, its address, computed with the addressing form the meaning uses
(43_load_store R211, R212), and its size in bytes. -/
def Instr.accesses (i : Instr) (s : State) : Option (Access × Word × Nat) :=
  match i with
  | .ldrLit16 _ imm8 => some (.read, (AddrForm.literal (BitVec.ofNat 32 (4 * imm8.toNat))).address s, 4)
  | .ldrReg16 _ rn rm => some (.read, (AddrForm.register rn.reg rm.reg 0).address s, 4)
  | .ldrImm16 _ rn imm5 => some (.read, (AddrForm.offset rn.reg (BitVec.ofNat 32 (4 * imm5.toNat))).address s, 4)
  | .ldrSp16 _ imm8 => some (.read, (AddrForm.offset .sp (BitVec.ofNat 32 (4 * imm8.toNat))).address s, 4)
  | .ldrImm12 _ rn imm12 => some (.read, (AddrForm.offset rn (imm12.setWidth 32)).address s, 4)
  | .ldrNeg8 _ rn imm8 => some (.read, (AddrForm.offset rn (signedOffset false imm8.toNat)).address s, 4)
  | .ldrPre _ rn u imm8 => some (.read, (AddrForm.preIndexed rn (signedOffset u imm8.toNat)).address s, 4)
  | .ldrPost _ rn u imm8 => some (.read, (AddrForm.postIndexed rn (signedOffset u imm8.toNat)).address s, 4)
  | .ldrt _ rn imm8 => some (.read, (AddrForm.offset rn (imm8.setWidth 32)).address s, 4)
  | .ldrReg32 _ rn rm imm2 => some (.read, (AddrForm.register rn rm imm2.toNat).address s, 4)
  | .ldrLit32 u _ imm12 => some (.read, (AddrForm.literal (signedOffset u imm12.toNat)).address s, 4)
  | .ldrhReg16 _ rn rm => some (.read, (AddrForm.register rn.reg rm.reg 0).address s, 2)
  | .ldrhImm16 _ rn imm5 => some (.read, (AddrForm.offset rn.reg (BitVec.ofNat 32 (2 * imm5.toNat))).address s, 2)
  | .ldrhImm12 _ rn imm12 => some (.read, (AddrForm.offset rn (imm12.setWidth 32)).address s, 2)
  | .ldrhNeg8 _ rn imm8 => some (.read, (AddrForm.offset rn (signedOffset false imm8.toNat)).address s, 2)
  | .ldrhPre _ rn u imm8 => some (.read, (AddrForm.preIndexed rn (signedOffset u imm8.toNat)).address s, 2)
  | .ldrhPost _ rn u imm8 => some (.read, (AddrForm.postIndexed rn (signedOffset u imm8.toNat)).address s, 2)
  | .ldrht _ rn imm8 => some (.read, (AddrForm.offset rn (imm8.setWidth 32)).address s, 2)
  | .ldrhReg32 _ rn rm imm2 => some (.read, (AddrForm.register rn rm imm2.toNat).address s, 2)
  | .ldrhLit32 u _ imm12 => some (.read, (AddrForm.literal (signedOffset u imm12.toNat)).address s, 2)
  | .ldrshReg16 _ rn rm => some (.read, (AddrForm.register rn.reg rm.reg 0).address s, 2)
  | .ldrshImm12 _ rn imm12 => some (.read, (AddrForm.offset rn (imm12.setWidth 32)).address s, 2)
  | .ldrshNeg8 _ rn imm8 => some (.read, (AddrForm.offset rn (signedOffset false imm8.toNat)).address s, 2)
  | .ldrshPre _ rn u imm8 => some (.read, (AddrForm.preIndexed rn (signedOffset u imm8.toNat)).address s, 2)
  | .ldrshPost _ rn u imm8 => some (.read, (AddrForm.postIndexed rn (signedOffset u imm8.toNat)).address s, 2)
  | .ldrsht _ rn imm8 => some (.read, (AddrForm.offset rn (imm8.setWidth 32)).address s, 2)
  | .ldrshReg32 _ rn rm imm2 => some (.read, (AddrForm.register rn rm imm2.toNat).address s, 2)
  | .ldrshLit32 u _ imm12 => some (.read, (AddrForm.literal (signedOffset u imm12.toNat)).address s, 2)
  | .strReg16 _ rn rm => some (.write, (AddrForm.register rn.reg rm.reg 0).address s, 4)
  | .strImm16 _ rn imm5 => some (.write, (AddrForm.offset rn.reg (BitVec.ofNat 32 (4 * imm5.toNat))).address s, 4)
  | .strSp16 _ imm8 => some (.write, (AddrForm.offset .sp (BitVec.ofNat 32 (4 * imm8.toNat))).address s, 4)
  | .strImm12 _ rn imm12 => some (.write, (AddrForm.offset rn (imm12.setWidth 32)).address s, 4)
  | .strNeg8 _ rn imm8 => some (.write, (AddrForm.offset rn (signedOffset false imm8.toNat)).address s, 4)
  | .strPre _ rn u imm8 => some (.write, (AddrForm.preIndexed rn (signedOffset u imm8.toNat)).address s, 4)
  | .strPost _ rn u imm8 => some (.write, (AddrForm.postIndexed rn (signedOffset u imm8.toNat)).address s, 4)
  | .strt _ rn imm8 => some (.write, (AddrForm.offset rn (imm8.setWidth 32)).address s, 4)
  | .strReg32 _ rn rm imm2 => some (.write, (AddrForm.register rn rm imm2.toNat).address s, 4)
  | .strhReg16 _ rn rm => some (.write, (AddrForm.register rn.reg rm.reg 0).address s, 2)
  | .strhImm16 _ rn imm5 => some (.write, (AddrForm.offset rn.reg (BitVec.ofNat 32 (2 * imm5.toNat))).address s, 2)
  | .strhImm12 _ rn imm12 => some (.write, (AddrForm.offset rn (imm12.setWidth 32)).address s, 2)
  | .strhNeg8 _ rn imm8 => some (.write, (AddrForm.offset rn (signedOffset false imm8.toNat)).address s, 2)
  | .strhPre _ rn u imm8 => some (.write, (AddrForm.preIndexed rn (signedOffset u imm8.toNat)).address s, 2)
  | .strhPost _ rn u imm8 => some (.write, (AddrForm.postIndexed rn (signedOffset u imm8.toNat)).address s, 2)
  | .strht _ rn imm8 => some (.write, (AddrForm.offset rn (imm8.setWidth 32)).address s, 2)
  | .strhReg32 _ rn rm imm2 => some (.write, (AddrForm.register rn rm imm2.toNat).address s, 2)
  | .lslsImm16 .. | .movsReg16 .. | .lsrsImm16 .. | .asrsImm16 .. | .addsReg16 .. | .addsImm3 .. | .movsImm8 ..
  | .cmpImm8 .. | .addsImm8 .. | .andsReg16 .. | .eorsReg16 .. | .lslsReg16 .. | .lsrsReg16 .. | .asrsReg16 ..
  | .rorsReg16 .. | .tstReg16 .. | .rsbsZero16 .. | .cmpReg16 .. | .cmnReg16 .. | .orrsReg16 .. | .bicsReg16 ..
  | .mvnsReg16 .. | .addHigh .. | .cmpHigh .. | .movHigh .. | .bx .. | .blx .. => none
  | .cbz .. | .cbnz .. | .pop16 .. | .it .. | .ldm16 .. | .bCond16 .. | .b16 .. => none
  | .andConst .. | .bicConst .. | .orrConst .. | .ornConst .. | .eorConst .. | .addConst .. | .rsbConst .. | .tstConst ..
  | .teqConst .. | .cmnConst .. | .cmpConst .. | .movConst .. | .mvnConst .. => none
  | .andShift .. | .bicShift .. | .orrShift .. | .ornShift .. | .eorShift .. | .addShift .. | .rsbShift .. | .tstShift ..
  | .teqShift .. | .cmnShift .. | .cmpShift .. | .movReg32 .. | .lslImm32 .. | .lsrImm32 .. | .asrImm32 .. | .rorImm32 ..
  | .rrx .. | .mvnShift .. | .lslReg32 .. | .lsrReg32 .. | .asrReg32 .. | .rorReg32 .. => none
  | .bCond32 .. | .b32 .. | .bl .. => none
  | .getPrimask .. | .setPrimask .. | .getFaultmask .. | .setFaultmask .. | .getBasepri .. | .setBasepri ..
  | .getControl .. | .setControl .. | .getMsp .. | .setMsp .. | .getPsp .. | .setPsp .. => none
  | .ldm32 .. | .ldmdb .. | .popW .. | .popWOne .. => none

/-- The bytes an instruction stores to: their first address and their number. -/
def Instr.storesTo (i : Instr) (s : State) : Option (Nat × Nat) :=
  match i.accesses s with
  | some (.write, a, n) => some (a.toNat, n)
  | _ => none

/-- The condition an instruction carries itself: only B<cond> carries one (44_branch_and_conditional R245). -/
def Instr.ownCond (i : Instr) : Cond :=
  match i with
  | .bCond16 c _ => c
  | .bCond32 c _ => c
  | _ => .al

/-- The instruction takes a condition from an IT block: all but IT, CBZ and CBNZ (44_branch_and_conditional R244, R249,
R250). -/
def Instr.takesCondition (i : Instr) : Bool :=
  match i with
  | .it _ _ => false
  | .cbz _ _ => false
  | .cbnz _ _ => false
  | _ => true

/-- The instruction is a multiple load (43_load_store R224, R225). -/
def Instr.isMultiple (i : Instr) : Bool :=
  match i with
  | .pop16 .. | .ldm16 .. | .ldm32 .. | .ldmdb .. | .popW .. | .popWOne .. => true
  | _ => false

/-- The start address and the number of words of a multiple load, computed as its meaning computes them (43_load_store R224,
R225). -/
def Instr.multiple (i : Instr) (s : State) : Option (Word × Nat) :=
  match i with
  | .pop16 p list => some (s.sp, (lowRegList list).length + p.toNat)
  | .ldm16 rn list => some (s.reg rn.reg, (lowRegList list).length)
  | .ldm32 _ rn p m list => some (s.reg rn, (regList list m).length + p.toNat)
  | .ldmdb _ rn p m list =>
    some (s.reg rn - BitVec.ofNat 32 (multipleBytes (regList list m) p), (regList list m).length + p.toNat)
  | .popW p m list => some (s.sp, (regList list m).length + p.toNat)
  | .popWOne _ => some (s.sp, 1)
  | _ => none

/-- The instruction loads the PC: LDR, LDM or POP with PC as a destination (43_load_store R226). -/
def Instr.loadsPc (i : Instr) : Bool :=
  match i with
  | .ldrImm12 rt _ _ => decide (rt = .pc)
  | .ldrNeg8 rt _ _ => decide (rt = .pc)
  | .ldrPre rt _ _ _ => decide (rt = .pc)
  | .ldrPost rt _ _ _ => decide (rt = .pc)
  | .ldrt rt _ _ => decide (rt = .pc)
  | .ldrReg32 rt _ _ _ => decide (rt = .pc)
  | .ldrLit32 _ rt _ => decide (rt = .pc)
  | .pop16 p _ => p
  | .ldm32 _ _ p _ _ => p
  | .ldmdb _ _ p _ _ => p
  | .popW p _ _ => p
  | .popWOne rt => decide (rt = .pc)
  | _ => false

/-- The instruction may write the PC: a branch or a load of the PC (10_state R25, R26). -/
def Instr.writesPc (i : Instr) : Bool :=
  match i with
  | .bx .. | .blx .. | .cbz .. | .cbnz .. | .bCond16 .. | .b16 .. | .bCond32 .. | .b32 .. | .bl .. => true
  | _ => i.loadsPc

end Sys2Proof

namespace Sys2Proof.Machine

/-! ## Readiness -/

/-- The instruction's condition holds and its operands are ones the spec admits. -/
def Ready (i : Instr) (s : State) : Prop := conditionPassed i.ownCond s = true ∧ i.wellFormed = true

/-- The sequential advance by `n` bytes stays inside the address space (10_state R26). -/
def Room (n : Nat) (s : State) : Prop := s.pc.toNat + n < addressCount

/-- The state after an instruction of `n` bytes that has no other effect (10_state R26; 44_branch_and_conditional R245). -/
def State.advanced (s : State) (n : Nat) : State :=
  { s with pc := s.pc + BitVec.ofNat 32 n, itstate := s.itstate.tail }

/-- An access of `n` bytes at `a` that an instruction of `UnalignedOK` makes is not trapped (20_memory R64 to R66). -/
def AlignOk (n : Nat) (a : Word) (s : State) : Prop :=
  a.toNat % n = 0 ∨ (s.unalignTrp = false ∧ s.cfg.supportsUnaligned a.toNat = true)

/-- A load of `n` bytes at `a` goes through (20_memory R67, R72). -/
def LoadOk (n : Nat) (a : Word) (s : State) : Prop :=
  a.toNat + n ≤ addressCount ∧ s.cfg.admits .read a.toNat n = true

/-- A store of `n` bytes at `a` goes through (20_memory R67, R72, R77). -/
def StoreOk (n : Nat) (a : Word) (s : State) : Prop :=
  a.toNat + n ≤ addressCount ∧ s.cfg.touchesText a.toNat n = false ∧ s.cfg.admits .write a.toNat n = true

/-- The address `a` is that of an instruction in an IT block of the program: at halfword `k` starts an IT instruction whose block
has more than `j` instructions, and the one `j` places after the first of them is at `a` (44_branch_and_conditional R244;
30_encoding R93). The first instruction of a block counts: a branch there passes by the IT. Where the instructions of the
program start is the model's reading of memory: notes/assumptions/11.md. -/
def InItBlock (m : Memory) (c : Config) (a : Word) : Prop :=
  ∃ (k : Nat) (firstcond : Cond) (mask : BitVec 4) (j : Nat), instrStart m c k = true ∧ c.admits .fetch (2 * k) 2 = true ∧
    decode (m.readBytes (2 * k) 2) = .ok (.it firstcond mask, []) ∧ j < (itBlock firstcond mask).length ∧
    a.toNat = 2 * (instrAfter m c)^[j] (k + 1)

/-! ## Values in memory and registers -/

/-- The word at address `a`: `mem[a+3] : mem[a+2] : mem[a+1] : mem[a]` (20_memory R68, R70). -/
def wordAt (m : Memory) (a : Nat) : Word := m.read (a + 3) ++ m.read (a + 2) ++ m.read (a + 1) ++ m.read a

/-- The halfword at address `a`: `mem[a+1] : mem[a]` (20_memory R68, R70). -/
def halfAt (m : Memory) (a : Nat) : BitVec 16 := m.read (a + 1) ++ m.read a

/-- What a register holds after the value `v` is written to it: SP drops bits[1:0] (10_state R21). -/
def held (r : Reg) (v : Word) : Word := if r = .sp then v &&& 0xFFFFFFFC#32 else v

/-- The registers in `rs` aside, nothing of the machine's registers, flags, special registers and parameters changed (the PC
and the IT state aside as well). A stack pointer that SP does not name never changes. -/
structure Frame (rs : List Reg) (s t : State) : Prop where
  regs : ∀ r, r ≠ .pc → r ∉ rs → t.reg r = s.reg r
  msp : (.sp ∉ rs ∨ s.usesPsp = true) → t.msp = s.msp
  psp : (.sp ∉ rs ∨ s.usesPsp = false) → t.psp = s.psp
  primask : t.primask = s.primask
  faultmask : t.faultmask = s.faultmask
  basepri : t.basepri = s.basepri
  control : t.control = s.control
  unalignTrp : t.unalignTrp = s.unalignTrp
  cfg : t.cfg = s.cfg

/-- No byte of memory changed. -/
def SameMem (s t : State) : Prop := ∀ a, t.mem.read a = s.mem.read a

/-- No byte of memory outside the `n` bytes from `a` on changed. -/
def SameMemOutside (a n : Nat) (s t : State) : Prop := ∀ b, (b < a ∨ a + n ≤ b) → t.mem.read b = s.mem.read b

/-- The PC moved past an instruction of `n` bytes and the IT state by one instruction. -/
def Advanced (n : Nat) (s t : State) : Prop := t.pc = s.pc + BitVec.ofNat 32 n ∧ t.itstate = s.itstate.tail

/-- The PC is at `target` and the IT state moved by one instruction. -/
def Jumped (target : Word) (s t : State) : Prop := t.pc = target ∧ t.itstate = s.itstate.tail

/-- An instruction of `n` bytes wrote `r` to `rd`, left the flags `f` and changed nothing else. -/
def WritesResult (n : Nat) (rd : Reg) (r : Word) (f : Flags) (s t : State) : Prop :=
  t.reg rd = r ∧ t.flags = f ∧ Frame [rd] s t ∧ SameMem s t ∧ Advanced n s t

/-- An instruction of `n` bytes left the flags `f` and changed nothing else. -/
def WritesFlags (n : Nat) (f : Flags) (s t : State) : Prop :=
  t.flags = f ∧ Frame [] s t ∧ SameMem s t ∧ Advanced n s t

/-- The flags of a logical result `r` with the carry `c` (41_operand2_data_processing R157, R160). -/
def resultFlags (s : State) (r : Word) (c : Bool) : Flags :=
  { n := r.getLsbD 31, z := decide (r.toNat = 0), c := c, v := s.flags.v }

/-- The flags of the sum `a + b`, from the exact sums (41_operand2_data_processing R155, R157). -/
def sumFlags (a b : Word) : Flags :=
  { n := (a + b).getLsbD 31
    z := decide ((a + b).toNat = 0)
    c := decide (4294967296 ≤ a.toNat + b.toNat)
    v := decide (a.toInt + b.toInt < -2147483648 ∨ 2147483648 ≤ a.toInt + b.toInt) }

/-- The flags of the difference `a - b`, from the exact differences (41_operand2_data_processing R156, R157). -/
def differenceFlags (a b : Word) : Flags :=
  { n := (a - b).getLsbD 31
    z := decide (a = b)
    c := decide (b.toNat ≤ a.toNat)
    v := decide (a.toInt - b.toInt < -2147483648 ∨ 2147483648 ≤ a.toInt - b.toInt) }

/-- The carry of an Operand2 constant (41_operand2_data_processing R153): bit[31] of a constant above 255 that is an 8-bit
value shifted left, else the carry flag. -/
def constantCarry (s : State) (v : Word) : Bool :=
  if 255 < v.toNat ∧ isShiftedByte v = true then v.getLsbD 31 else s.flags.c

/-- How many registers below number `j` a register list names: the place of register `j` among the words loaded, the lowest
register first (43_load_store R224). -/
def rank {w : Nat} (list : BitVec w) (j : Nat) : Nat := ((List.range j).filter fun k => list.getLsbD k).length

/-- The `k` words from `a` on can be read by a multiple load (20_memory R62, R64, R67, R72). -/
def WordsOk (k : Nat) (a : Word) (s : State) : Prop :=
  a.toNat % 4 = 0 ∧ a.toNat + 4 * k ≤ addressCount ∧ ∀ j, j < k → s.cfg.admits .read (a.toNat + 4 * j) 4 = true

/-! ## IT letters -/

/-- The mask field of an IT instruction from its letters, `true` for T and `false` for E: one bit each, equal to `firstcond[0]`
for T and its complement for E, then a 1, then zeros (30_encoding R117). -/
def itMask (firstcond : Cond) (letters : List Bool) : BitVec 4 :=
  let f := decide (firstcond.num % 2 = 1)
  let body := letters.map fun l => if l then f else !f
  BitVec.ofNat 4 ((((body ++ [true]).foldl (fun acc b => 2 * acc + b.toNat) 0)) * 2 ^ (3 - letters.length))

end Sys2Proof.Machine
end

