-- ==== Sys2Proof/Certificates/Slice0/Obligations.lean ====
section
/-! DEFINITION. The statements for the provers. Each holds for every state and operand it names, in states no run reaches as
well; where it could fail in such a state alone, a premise names the part of the invariant it needs. -/

open Sys2Proof Sys2Proof.Machine

/-! ## Encoding -/

/-- Decoding the encoding of a well-formed instruction gives the instruction back and leaves what follows it. The encodings are
the annex of 30_encoding section 7 (general knowledge of the spec: notes/assumptions/14.md). -/
def Obligations.DecodeOfEncode : Prop :=
  ∀ (i : Instr) (rest : List Byte), i.wellFormed = true → decode (encodeBytes i ++ rest) = .ok (i, rest)

/-- Every word has one meaning: what decodes is well-formed and is the encoding of what it decodes to, so the decoder drops no
bit and reads no reserved pattern (30_encoding R104, R119). -/
def Obligations.EncodeOfDecode : Prop :=
  ∀ (bs : List Byte) (i : Instr) (rest : List Byte), decode bs = .ok (i, rest) →
    i.wellFormed = true ∧ encodeBytes i ++ rest = bs

/-- The first halfword tells the width: 4 bytes if its bits[15:11] are 11101, 11110 or 11111, else 2 (30_encoding R90, R93). -/
def Obligations.DecodeWidth : Prop :=
  ∀ (b0 b1 : Byte) (rest : List Byte) (i : Instr) (rest' : List Byte), decode (b0 :: b1 :: rest) = .ok (i, rest') →
    width i = (if (b1 ++ b0 : BitVec 16).extractLsb' 11 5 ∈ [0b11101#5, 0b11110#5, 0b11111#5] then 4 else 2) ∧
      rest' = (b0 :: b1 :: rest).drop (width i)

/-- Words of the spec's encodings decode to the instructions they stand for (95_test_vectors 2.10; spec/opcode_table.json's
numbering: notes/assumptions/14.md), and 0xBF00, 0xDE00 and 0xF3EF 8115 to none. -/
def Obligations.DecodeSamples : Prop :=
  decodeTableWord 16 0x0008 = some (.movsReg16 .r0 .r1) ∧
  decodeTableWord 16 0x0808 = some (.lsrsImm16 .r0 .r1 0#5) ∧
  decodeTableWord 16 0x4240 = some (.rsbsZero16 .r0 .r0) ∧
  decodeTableWord 16 0xBFB5 = some (.it .lt 0b0101#4) ∧
  decodeTableWord 32 0xE8900006 = some (.ldm32 false .r0 false false 6#13) ∧
  decodeTableWord 32 0xF04F4000 = some (.movConst false .r0 0x400#12) ∧
  decodeTableWord 32 0xEA4F0031 = some (.rrx false .r0 .r1) ∧
  decodeTableWord 32 0xF3EF8110 = some (.getPrimask .r1) ∧
  decodeTableWord 32 0xF8502F04 = some (.ldrPre .r2 .r0 true 4#8) ∧
  decodeTableWord 16 0xBF00 = none ∧ decodeTableWord 16 0xDE00 = none ∧ decodeTableWord 32 0xF3EF8115 = none

/-! ## The step -/

/-- Where the run has not ended and the bytes at the PC are fetched and decode to an instruction, a step is that instruction
and nothing else: there is no delay slot and the instruction moves the PC itself. At the halt address the final state stays
(the model's choice: notes/assumptions/8.md). -/
def Obligations.StepRunsDecoded : Prop :=
  (∀ (s : State) (i : Instr), s.pc ≠ s.cfg.haltAddr → s.pc.toNat + width i ≤ addressCount →
    s.cfg.admits .fetch s.pc.toNat (width i) = true →
    decode (s.mem.readBytes s.pc.toNat (width i)) = .ok (i, []) → step s = exec i s) ∧
  ∀ s : State, s.pc = s.cfg.haltAddr → step s = .next s

/-- A word loaded where the step fetches next is the instruction the next step runs (the model's loading of a program:
notes/assumptions/9.md). -/
def Obligations.PlacedWordRuns : Prop :=
  ∀ (s : State) (nbits w : Nat) (i : Instr), s.mem.wf = true → s.pc.toNat + 4 ≤ addressCount →
    decodeTableWord nbits w = some i → step (s.withFetchWord nbits w) = exec i (s.withFetchWord nbits w)

/-- A bit pattern that is no instruction is refused, never a no-op: a 16-bit pattern wherever its own two bytes can be fetched,
whatever follows them, the end of the address space included; a 32-bit pattern where its four bytes can (30_encoding R93,
R104). -/
def Obligations.InvalidRefused : Prop :=
  ∀ (s : State) (e : DecodeError), s.pc ≠ s.cfg.haltAddr →
    (s.pc.toNat + 2 ≤ addressCount → s.cfg.admits .fetch s.pc.toNat 2 = true →
      (halfAt s.mem s.pc.toNat).extractLsb' 11 5 ∉ [0b11101#5, 0b11110#5, 0b11111#5] →
      decode (s.mem.readBytes s.pc.toNat 2) = .error e → step s = .refused (.invalidEncoding e)) ∧
    (s.pc.toNat + 4 ≤ addressCount → s.cfg.admits .fetch s.pc.toNat 4 = true →
      decode (s.mem.readBytes s.pc.toNat 4) = .error e → step s = .refused (.invalidEncoding e))

/-- A fetch the launch memory does not admit is refused with its address, as is one across the top of the address space: the
first halfword, and, where its bits[15:11] begin a 32-bit instruction, the second, which crosses the top for an instruction
at 0xFFFFFFFE (20_memory R69; 10_state R26; 30_encoding R93; 92_eei_decisions D4, D10). -/
def Obligations.FetchRefused : Prop :=
  ∀ s : State, s.pc ≠ s.cfg.haltAddr →
    (s.pc = 0xFFFFFFFF#32 → step s = .refused .addressTop) ∧
    (s.pc.toNat + 2 ≤ addressCount → s.cfg.admits .fetch s.pc.toNat 2 = false →
      step s = .refused (.fetchNotAdmitted s.pc.toNat)) ∧
    (s.pc.toNat + 2 ≤ addressCount → s.cfg.admits .fetch s.pc.toNat 2 = true →
      (halfAt s.mem s.pc.toNat).extractLsb' 11 5 ∈ [0b11101#5, 0b11110#5, 0b11111#5] →
      (addressCount < s.pc.toNat + 4 → step s = .refused .addressTop) ∧
      (s.pc.toNat + 4 ≤ addressCount → s.cfg.admits .fetch (s.pc.toNat + 2) 2 = false →
        step s = .refused (.fetchNotAdmitted (s.pc.toNat + 2))))

/-! ## Reset and invariants -/

/-- The values the spec's table gives for reset: LR is all ones, the masks, CONTROL and UNALIGN_TRP are 0, the IT state is
empty, MSP is the word at address 0 and the PC the word at address 4 with bit[0] removed (10_state R41;
70_reset_and_hazards R301: general knowledge of the spec). That the PC drops bit[0] of a word whose bit[0] is 0, as it is in
the empty memory of reset, is the model's choice: notes/assumptions/29.md. -/
def Obligations.ResetValues : Prop :=
  State.reset.lr = 0xFFFFFFFF#32 ∧ State.reset.primask = 0#32 ∧ State.reset.faultmask = 0#32 ∧
  State.reset.basepri = 0#32 ∧ State.reset.control = 0#32 ∧ State.reset.unalignTrp = false ∧
  State.reset.itstate = [] ∧ State.reset.msp = wordAt State.reset.mem 0 &&& 0xFFFFFFFC#32 ∧
  State.reset.pc = wordAt State.reset.mem 4 &&& 0xFFFFFFFE#32 ∧ State.reset.privileged = true

/-- The invariant holds at reset. That memory is a list in canonical form, with nothing listed at reset, is the model's choice
(notes/assumptions/3.md), and so is PSP = 0 at reset, which the spec leaves unknown (notes/assumptions/1.md). -/
def Obligations.ResetInv : Prop := State.reset.Inv

/-- Every step keeps the invariant: memory in its canonical form, an even PC, the stack pointers word-aligned, the reserved
bits of PRIMASK, FAULTMASK, BASEPRI and CONTROL zero, and an IT block of at most four instructions (10_state R21, R23, R32 to
R35; 44_branch_and_conditional R244). The canonical form of memory is the model's own representation:
notes/assumptions/3.md. -/
def Obligations.StepKeepsInv : Prop := ∀ s t : State, s.Inv → step s = .next t → t.Inv

/-- Once CONTROL[0] is 1 it stays 1 for the rest of the run, and CONTROL, PRIMASK, FAULTMASK and BASEPRI keep their values:
nothing in the model can make the thread privileged again (60_exceptions R278; 40_special_register_access R146). -/
def Obligations.UnprivilegedForGood : Prop :=
  ∀ (n : Nat) (s t : State), s.control.getLsbD 0 = true → Host.Core.run core n s = .next t →
    t.control = s.control ∧ t.primask = s.primask ∧ t.faultmask = s.faultmask ∧ t.basepri = s.basepri

/-- Each special register has one writer, its Write function, and a privileged one; the stack pointer that SP names is also
written as SP, by the instructions with SP as a destination, of which the Write functions of MSP, PSP and CONTROL are none.
No instruction changes UNALIGN_TRP or a launch parameter (10_state R31 to R38; 40_special_register_access R131, R146). -/
def Obligations.SpecialRegisterWriters : Prop :=
  ∀ (i : Instr) (s t : State), exec i s = .next t →
    let asSp := Reg.sp ∈ i.dests ∧ ∀ rn, i ≠ .setMsp rn ∧ i ≠ .setPsp rn ∧ i ≠ .setControl rn
    (t.primask = s.primask ∨ s.control.getLsbD 0 = false ∧ ∃ rn, i = .setPrimask rn) ∧
    (t.faultmask = s.faultmask ∨ s.control.getLsbD 0 = false ∧ ∃ rn, i = .setFaultmask rn) ∧
    (t.basepri = s.basepri ∨ s.control.getLsbD 0 = false ∧ ∃ rn, i = .setBasepri rn) ∧
    (t.control = s.control ∨ s.control.getLsbD 0 = false ∧ ∃ rn, i = .setControl rn) ∧
    (t.msp = s.msp ∨ (s.control.getLsbD 0 = false ∧ ∃ rn, i = .setMsp rn) ∨
      (s.control.getLsbD 1 = false ∧ asSp)) ∧
    (t.psp = s.psp ∨ (s.control.getLsbD 0 = false ∧ ∃ rn, i = .setPsp rn) ∨
      (s.control.getLsbD 1 = true ∧ asSp)) ∧
    t.unalignTrp = s.unalignTrp ∧ t.cfg = s.cfg

/-! ## Frames of every instruction -/

/-- The frame of every instruction on the registers: R0 to R12, SP and LR keep their values except those of `Instr.dests`
(10_state R20, R22). -/
def Obligations.RegisterFrame : Prop :=
  ∀ (i : Instr) (s t : State), exec i s = .next t → ∀ r, r ≠ Reg.pc → r ∉ i.dests → t.reg r = s.reg r

/-- The frame of every instruction on the flags: a flag that `Instr.flagsWritten` does not give the instruction keeps its
value, inside and outside an IT block (10_state R29; 41_operand2_data_processing R158, R160; 30_encoding R118). -/
def Obligations.FlagFrame : Prop :=
  ∀ (i : Instr) (s t : State), exec i s = .next t →
    match i.flagsWritten s.itstate.isEmpty with
    | .none => t.flags = s.flags
    | .nzc => t.flags.v = s.flags.v
    | .nzcv => True

/-- The frame of every instruction on memory: no byte changes outside those the instruction stores to, whose address is
computed as its meaning computes it; an instruction that stores nothing changes no byte (20_memory R70, R74). -/
def Obligations.MemoryFrame : Prop :=
  ∀ (i : Instr) (s t : State), exec i s = .next t →
    match i.storesTo s with
    | none => SameMem s t
    | some (a, n) => SameMemOutside a n s t

/-- The frame of every instruction on the PC and the IT state: an instruction that writes no PC goes on at the next
instruction, which must lie inside the address space, and every instruction but IT takes one place of an IT block (10_state
R26; 44_branch_and_conditional R245). -/
def Obligations.ProgramCounterFrame : Prop :=
  ∀ (i : Instr) (s t : State), exec i s = .next t →
    (i.writesPc = false → Room (width i) s ∧ t.pc = s.pc + BitVec.ofNat 32 (width i)) ∧
    ((∀ c mask, i ≠ .it c mask) → t.itstate = s.itstate.tail)

/-- A failed condition: the instruction does nothing but advance the PC and the IT state, whatever its operands, its address
or its place (44_branch_and_conditional R242, R245; 10_state R26). -/
def Obligations.FailedConditionDoesNothing : Prop :=
  ∀ (i : Instr) (s : State), i.takesCondition = true → conditionPassed i.ownCond s = false → Room (width i) s →
    exec i s = .next (s.advanced (width i))

/-- A UsageFault comes from an instruction whose condition passed, at its own address: UNALIGNED from a load or store alone,
INVSTATE from BX, BLX or a load of the PC alone. A stuck access comes from a load or store alone (60_exceptions R270, R271,
R273). -/
def Obligations.FaultsComeFrom : Prop :=
  ∀ (i : Instr) (s : State),
    (∀ a p, exec i s = .fault (.usageFault (.unaligned a) p) →
      p = s.pc ∧ conditionPassed .al s = true ∧ ((i.accesses s).isSome = true ∨ i.isMultiple = true)) ∧
    (∀ p, exec i s = .fault (.usageFault .invstate p) →
      p = s.pc ∧ conditionPassed .al s = true ∧
        ((∃ rm, i = .bx rm) ∨ (∃ rm, i = .blx rm) ∨ i.loadsPc = true)) ∧
    (∀ acc a, exec i s = .fault (.stuck acc a) →
      conditionPassed .al s = true ∧ ((i.accesses s).isSome = true ∨ i.isMultiple = true))

/-- No meaning answers that it is not modelled. -/
def Obligations.EveryInstructionModelled : Prop :=
  ∀ (i : Instr) (s : State) (m : String), exec i s ≠ .refused (.notModelled m)

/-! ## Data processing: results -/

/-- AND, BIC, ORR, ORN, EOR, MOV and MVN with an Operand2 constant: the result, N and Z of it and C of the constant with S, no
flag without, and nothing else (41_operand2_data_processing R153, R157 to R167). -/
def Obligations.LogicalConstantResults : Prop :=
  ∀ (sf : Bool) (rd rn : Reg) (imm12 : BitVec 12) (s : State),
    let v := (thumbExpandImmC imm12 s.flags.c).1
    ∀ p ∈ [(Instr.andConst sf rd rn imm12, s.reg rn &&& v), (Instr.bicConst sf rd rn imm12, s.reg rn &&& ~~~v),
        (Instr.orrConst sf rd rn imm12, s.reg rn ||| v), (Instr.ornConst sf rd rn imm12, s.reg rn ||| ~~~v),
        (Instr.eorConst sf rd rn imm12, s.reg rn ^^^ v), (Instr.movConst sf rd imm12, v),
        (Instr.mvnConst sf rd imm12, ~~~v)],
      Ready p.1 s → Room 4 s →
        ∃ t, exec p.1 s = .next t ∧
          WritesResult 4 rd p.2 (if sf then resultFlags s p.2 (constantCarry s v) else s.flags) s t

/-- AND, BIC, ORR, ORN, EOR, MVN and MOV with an Operand2 register: the register is shifted as the field says; N and Z of the
result and C of the shifter with S, no flag without, and nothing else (41_operand2_data_processing R154, R157 to R167;
42_shift_operations R197). -/
def Obligations.LogicalShiftedResults : Prop :=
  ∀ (sf : Bool) (rd rn rm : Reg) (ty : ShiftType) (imm5 : BitVec 5) (s : State),
    let v := shiftC (s.reg rm) (decodeShift ty imm5).1 (decodeShift ty imm5).2 s.flags.c
    ∀ p ∈ [(Instr.andShift sf rd rn rm ty imm5, s.reg rn &&& v.1, v.2),
        (Instr.bicShift sf rd rn rm ty imm5, s.reg rn &&& ~~~v.1, v.2),
        (Instr.orrShift sf rd rn rm ty imm5, s.reg rn ||| v.1, v.2),
        (Instr.ornShift sf rd rn rm ty imm5, s.reg rn ||| ~~~v.1, v.2),
        (Instr.eorShift sf rd rn rm ty imm5, s.reg rn ^^^ v.1, v.2),
        (Instr.mvnShift sf rd rm ty imm5, ~~~v.1, v.2), (Instr.movReg32 sf rd rm, s.reg rm, s.flags.c)],
      Ready p.1 s → Room 4 s →
        ∃ t, exec p.1 s = .next t ∧
          WritesResult 4 rd p.2.1 (if sf then resultFlags s p.2.1 p.2.2 else s.flags) s t

/-- The 16-bit logical instructions and moves: N and Z of the result outside an IT block, no flag inside one, C and V never
(an unshifted register and a constant up to 255 leave C); `MOVS Rd, Rm` stands outside a block only and `MOV Rd, Rm` writes no
flag anywhere (41_operand2_data_processing R159 to R167; 30_encoding R113, R118). -/
def Obligations.Logical16Results : Prop :=
  ∀ (a b : LowReg) (rd rm : Reg) (imm8 : BitVec 8) (s : State), Room 2 s →
    (∀ p ∈ [(Instr.andsReg16 a b, s.reg a.reg &&& s.reg b.reg), (Instr.eorsReg16 a b, s.reg a.reg ^^^ s.reg b.reg),
        (Instr.orrsReg16 a b, s.reg a.reg ||| s.reg b.reg), (Instr.bicsReg16 a b, s.reg a.reg &&& ~~~s.reg b.reg),
        (Instr.mvnsReg16 a b, ~~~s.reg b.reg), (Instr.movsImm8 a imm8, imm8.setWidth 32)],
      Ready p.1 s →
        ∃ t, exec p.1 s = .next t ∧
          WritesResult 2 a.reg p.2 (if s.itstate = [] then resultFlags s p.2 s.flags.c else s.flags) s t) ∧
    (s.itstate = [] →
      ∃ t, exec (.movsReg16 a b) s = .next t ∧
        WritesResult 2 a.reg (s.reg b.reg) (resultFlags s (s.reg b.reg) s.flags.c) s t) ∧
    (Ready (.movHigh rd rm) s →
      ∃ t, exec (.movHigh rd rm) s = .next t ∧ WritesResult 2 rd (s.reg rm) s.flags s t)

/-- TST and TEQ: N and Z of the result that is discarded and C of Operand2, inside a block too, V and every register
unchanged (41_operand2_data_processing R159, R168, R169, R175). -/
def Obligations.TestResults : Prop :=
  ∀ (a b : LowReg) (rn rm : Reg) (imm12 : BitVec 12) (ty : ShiftType) (imm5 : BitVec 5) (s : State),
    let v := (thumbExpandImmC imm12 s.flags.c).1
    let w := shiftC (s.reg rm) (decodeShift ty imm5).1 (decodeShift ty imm5).2 s.flags.c
    ∀ p ∈ [(Instr.tstReg16 a b, 2, s.reg a.reg &&& s.reg b.reg, s.flags.c),
        (Instr.tstConst rn imm12, 4, s.reg rn &&& v, constantCarry s v),
        (Instr.teqConst rn imm12, 4, s.reg rn ^^^ v, constantCarry s v),
        (Instr.tstShift rn rm ty imm5, 4, s.reg rn &&& w.1, w.2),
        (Instr.teqShift rn rm ty imm5, 4, s.reg rn ^^^ w.1, w.2)],
      Ready p.1 s → Room p.2.1 s →
        ∃ t, exec p.1 s = .next t ∧ WritesFlags p.2.1 (resultFlags s p.2.2.1 p.2.2.2) s t

/-- ADD in every form: the sum; with the flags (S, or a 16-bit form outside an IT block) N and Z of it, C the unsigned carry
and V the signed overflow of the exact sum, without them no flag (41_operand2_data_processing R155, R157, R173;
30_encoding R118). -/
def Obligations.AddResults : Prop :=
  ∀ (sf : Bool) (a b c : LowReg) (rd rn rm : Reg) (imm3 : BitVec 3) (imm8 : BitVec 8) (imm12 : BitVec 12)
    (ty : ShiftType) (imm5 : BitVec 5) (s : State),
    let out := s.itstate.isEmpty
    ∀ p ∈ [(Instr.addConst sf rd rn imm12, 4, rd, sf, s.reg rn, (thumbExpandImmC imm12 s.flags.c).1),
        (Instr.addShift sf rd rn rm ty imm5, 4, rd, sf, s.reg rn,
          (shiftC (s.reg rm) (decodeShift ty imm5).1 (decodeShift ty imm5).2 s.flags.c).1),
        (Instr.addsReg16 a b c, 2, a.reg, out, s.reg b.reg, s.reg c.reg),
        (Instr.addsImm3 a b imm3, 2, a.reg, out, s.reg b.reg, imm3.setWidth 32),
        (Instr.addsImm8 a imm8, 2, a.reg, out, s.reg a.reg, imm8.setWidth 32),
        (Instr.addHigh rd rm, 2, rd, false, s.reg rd, s.reg rm)],
      Ready p.1 s → Room p.2.1 s →
        ∃ t, exec p.1 s = .next t ∧
          WritesResult p.2.1 p.2.2.1 (p.2.2.2.2.1 + p.2.2.2.2.2)
            (if p.2.2.2.1 then sumFlags p.2.2.2.2.1 p.2.2.2.2.2 else s.flags) s t

/-- RSB in every form: Operand2 less the register, with C "not borrow" and V the signed overflow of the exact difference
(41_operand2_data_processing R156, R157, R172; 30_encoding R118). -/
def Obligations.ReverseSubtractResults : Prop :=
  ∀ (sf : Bool) (a b : LowReg) (rd rn rm : Reg) (imm12 : BitVec 12) (ty : ShiftType) (imm5 : BitVec 5) (s : State),
    ∀ p ∈ [(Instr.rsbConst sf rd rn imm12, 4, rd, sf, (thumbExpandImmC imm12 s.flags.c).1, s.reg rn),
        (Instr.rsbShift sf rd rn rm ty imm5, 4, rd, sf,
          (shiftC (s.reg rm) (decodeShift ty imm5).1 (decodeShift ty imm5).2 s.flags.c).1, s.reg rn),
        (Instr.rsbsZero16 a b, 2, a.reg, s.itstate.isEmpty, 0#32, s.reg b.reg)],
      Ready p.1 s → Room p.2.1 s →
        ∃ t, exec p.1 s = .next t ∧
          WritesResult p.2.1 p.2.2.1 (p.2.2.2.2.1 - p.2.2.2.2.2)
            (if p.2.2.2.1 then differenceFlags p.2.2.2.2.1 p.2.2.2.2.2 else s.flags) s t

/-- CMP and CMN in every form write all four flags, of the difference and of the sum, inside a block too, and no register
(41_operand2_data_processing R155 to R157, R170, R171, R175). -/
def Obligations.CompareResults : Prop :=
  ∀ (a b : LowReg) (rn rm : Reg) (imm8 : BitVec 8) (imm12 : BitVec 12) (ty : ShiftType) (imm5 : BitVec 5) (s : State),
    let v := (thumbExpandImmC imm12 s.flags.c).1
    let w := (shiftC (s.reg rm) (decodeShift ty imm5).1 (decodeShift ty imm5).2 s.flags.c).1
    ∀ p ∈ [(Instr.cmpImm8 a imm8, 2, differenceFlags (s.reg a.reg) (imm8.setWidth 32)),
        (Instr.cmpReg16 a b, 2, differenceFlags (s.reg a.reg) (s.reg b.reg)),
        (Instr.cmpHigh rn rm, 2, differenceFlags (s.reg rn) (s.reg rm)),
        (Instr.cmpConst rn imm12, 4, differenceFlags (s.reg rn) v),
        (Instr.cmpShift rn rm ty imm5, 4, differenceFlags (s.reg rn) w),
        (Instr.cmnReg16 a b, 2, sumFlags (s.reg a.reg) (s.reg b.reg)),
        (Instr.cmnConst rn imm12, 4, sumFlags (s.reg rn) v), (Instr.cmnShift rn rm ty imm5, 4, sumFlags (s.reg rn) w)],
      Ready p.1 s → Room p.2.1 s → ∃ t, exec p.1 s = .next t ∧ WritesFlags p.2.1 p.2.2 s t

/-- The shift instructions ASR, LSR, LSL, ROR and RRX: which register is shifted, by how many bits (an immediate, where 0
encodes 32 for LSR and ASR, or the low byte of a register), the result, N and Z of it and C of the shifter with the flags,
and nothing else (42_shift_operations R196 to R203; 30_encoding R110, R118). -/
def Obligations.ShiftInstructionResults : Prop :=
  ∀ (sf : Bool) (a b : LowReg) (rd rm rs : Reg) (imm5 : BitVec 5) (s : State),
    let out := s.itstate.isEmpty
    let n32 := if imm5 = 0#5 then 32 else imm5.toNat
    let lb := (s.reg b.reg).toNat % 256
    let ls := (s.reg rs).toNat % 256
    ∀ p ∈ [(Instr.lslsImm16 a b imm5, 2, a.reg, out, shiftC (s.reg b.reg) .lsl imm5.toNat s.flags.c),
        (Instr.lsrsImm16 a b imm5, 2, a.reg, out, shiftC (s.reg b.reg) .lsr n32 s.flags.c),
        (Instr.asrsImm16 a b imm5, 2, a.reg, out, shiftC (s.reg b.reg) .asr n32 s.flags.c),
        (Instr.lslsReg16 a b, 2, a.reg, out, shiftC (s.reg a.reg) .lsl lb s.flags.c),
        (Instr.lsrsReg16 a b, 2, a.reg, out, shiftC (s.reg a.reg) .lsr lb s.flags.c),
        (Instr.asrsReg16 a b, 2, a.reg, out, shiftC (s.reg a.reg) .asr lb s.flags.c),
        (Instr.rorsReg16 a b, 2, a.reg, out, shiftC (s.reg a.reg) .ror lb s.flags.c),
        (Instr.lslImm32 sf rd rm imm5, 4, rd, sf, shiftC (s.reg rm) .lsl imm5.toNat s.flags.c),
        (Instr.lsrImm32 sf rd rm imm5, 4, rd, sf, shiftC (s.reg rm) .lsr n32 s.flags.c),
        (Instr.asrImm32 sf rd rm imm5, 4, rd, sf, shiftC (s.reg rm) .asr n32 s.flags.c),
        (Instr.rorImm32 sf rd rm imm5, 4, rd, sf, shiftC (s.reg rm) .ror imm5.toNat s.flags.c),
        (Instr.lslReg32 sf rd rm rs, 4, rd, sf, shiftC (s.reg rm) .lsl ls s.flags.c),
        (Instr.lsrReg32 sf rd rm rs, 4, rd, sf, shiftC (s.reg rm) .lsr ls s.flags.c),
        (Instr.asrReg32 sf rd rm rs, 4, rd, sf, shiftC (s.reg rm) .asr ls s.flags.c),
        (Instr.rorReg32 sf rd rm rs, 4, rd, sf, shiftC (s.reg rm) .ror ls s.flags.c),
        (Instr.rrx sf rd rm, 4, rd, sf, shiftC (s.reg rm) .rrx 1 s.flags.c)],
      Ready p.1 s → Room p.2.1 s →
        ∃ t, exec p.1 s = .next t ∧
          WritesResult p.2.1 p.2.2.1 p.2.2.2.2.1
            (if p.2.2.2.1 then resultFlags s p.2.2.2.2.1 p.2.2.2.2.2 else s.flags) s t

/-! ## Data processing: the laws of the shifter, the adder and Operand2 -/

/-- The addition law, whole: the result modulo 2^32, C the unsigned carry, V whether the result differs from the exact signed
sum, which is D00's test that bit[31] does not match the sign of the exact sum (41_operand2_data_processing R155). -/
def Obligations.AdditionLaw : Prop :=
  ∀ (a b : Word) (cin : Bool),
    (addWithCarry a b cin).value.toNat = (a.toNat + b.toNat + cin.toNat) % 2 ^ 32 ∧
    ((addWithCarry a b cin).carry = true ↔ 2 ^ 32 ≤ a.toNat + b.toNat + cin.toNat) ∧
    ((addWithCarry a b cin).overflow = true ↔ (addWithCarry a b cin).value.toInt ≠ a.toInt + b.toInt + cin.toNat) ∧
    ((addWithCarry a b cin).overflow = true ↔
      ((addWithCarry a b cin).value.getLsbD 31 ≠ decide (a.toInt + b.toInt + cin.toNat < 0))) ∧
    ((a.getLsbD 31 = b.getLsbD 31 ∧ (addWithCarry a b false).value.getLsbD 31 ≠ a.getLsbD 31) ↔
      (addWithCarry a b false).overflow = true)

/-- The subtraction law, whole: the difference modulo 2^32, C "not borrow", V whether the result differs from the exact signed
difference; and it is the addition of the complement with carry-in 1 (41_operand2_data_processing R156). -/
def Obligations.SubtractionLaw : Prop :=
  ∀ a b : Word,
    (sub a b).value = BitVec.ofInt 32 ((a.toNat : Int) - (b.toNat : Int)) ∧
    ((sub a b).carry = true ↔ b.toNat ≤ a.toNat) ∧
    ((sub a b).overflow = true ↔ (sub a b).value.toInt ≠ a.toInt - b.toInt) ∧
    sub a b = addWithCarry a (~~~b) true ∧
    ((a.getLsbD 31 ≠ b.getLsbD 31 ∧ (sub a b).value.getLsbD 31 ≠ a.getLsbD 31) ↔ (sub a b).overflow = true)

/-- The flag tests of Table 26 in every flag state, with the LE row of 90_conflicts C6; and which condition an instruction is
tested on: inside an IT block the first of the conditions still to come, outside one its own, which is that of its encoding
for B<cond> and AL for every other instruction (44_branch_and_conditional R241, R245; notes/assumptions/20.md). -/
def Obligations.ConditionTests : Prop :=
  (∀ f : Flags,
    (Cond.eq.holds f = true ↔ f.z = true) ∧ (Cond.ne.holds f = true ↔ f.z = false) ∧
    (Cond.cs.holds f = true ↔ f.c = true) ∧ (Cond.cc.holds f = true ↔ f.c = false) ∧
    (Cond.mi.holds f = true ↔ f.n = true) ∧ (Cond.pl.holds f = true ↔ f.n = false) ∧
    (Cond.vs.holds f = true ↔ f.v = true) ∧ (Cond.vc.holds f = true ↔ f.v = false) ∧
    (Cond.hi.holds f = true ↔ f.c = true ∧ f.z = false) ∧ (Cond.ls.holds f = true ↔ f.c = false ∨ f.z = true) ∧
    (Cond.ge.holds f = true ↔ f.n = f.v) ∧ (Cond.lt.holds f = true ↔ f.n ≠ f.v) ∧
    (Cond.gt.holds f = true ↔ f.z = false ∧ f.n = f.v) ∧ (Cond.le.holds f = true ↔ f.z = true ∨ f.n ≠ f.v) ∧
    Cond.al.holds f = true) ∧
  (∀ (i : Instr) (s : State) (c : Cond) (rest : List Cond), s.itstate = c :: rest →
    conditionPassed i.ownCond s = c.holds s.flags) ∧
  (∀ (s : State) (c : Cond) (imm8 : BitVec 8) (imm20 : BitVec 20), s.itstate = [] →
    conditionPassed (Instr.bCond16 c imm8).ownCond s = c.holds s.flags ∧
    conditionPassed (Instr.bCond32 c imm20).ownCond s = c.holds s.flags) ∧
  ∀ (i : Instr) (s : State), s.itstate = [] → (∀ c imm8, i ≠ .bCond16 c imm8) → (∀ c imm20, i ≠ .bCond32 c imm20) →
    conditionPassed i.ownCond s = true

/-- Which conditions hold after `CMP a, b`: the meanings of Table 26 for the operands, and the complementary pairs, in every
flag state (44_branch_and_conditional R241, with the LE row of 90_conflicts C6). -/
def Obligations.ConditionsAfterCompare : Prop :=
  (∀ a b : Word, let f := Flags.arith (sub a b)
    (Cond.eq.holds f = true ↔ a = b) ∧ (Cond.cs.holds f = true ↔ b.toNat ≤ a.toNat) ∧
    (Cond.hi.holds f = true ↔ b.toNat < a.toNat) ∧ (Cond.ge.holds f = true ↔ b.toInt ≤ a.toInt) ∧
    (Cond.gt.holds f = true ↔ b.toInt < a.toInt) ∧ (Cond.ne.holds f = true ↔ a ≠ b) ∧
    (Cond.cc.holds f = true ↔ a.toNat < b.toNat) ∧ (Cond.ls.holds f = true ↔ a.toNat ≤ b.toNat) ∧
    (Cond.lt.holds f = true ↔ a.toInt < b.toInt) ∧ (Cond.le.holds f = true ↔ a.toInt ≤ b.toInt)) ∧
  (∀ (c : Cond) (f : Flags), c ≠ .al → c.inverse.holds f = !c.holds f) ∧ ∀ f : Flags, Cond.al.holds f = true

/-- `CMP Rn, #0xFFFFFFFE` and `CMN Rn, #2` give the same result and flags for every Rn; in general `CMP Rn, #k` and
`CMN Rn, #(2^32 - k)` give the same result, N and Z, the same C but for k = 0 and the same V but for k = 0x80000000
(41_operand2_data_processing R176). -/
def Obligations.CompareSubstitution : Prop :=
  (∀ x : Word, sub x 0xFFFFFFFE#32 = addWithCarry x 2#32 false) ∧
  isOp2Const 0xFFFFFFFE#32 = false ∧ isOp2Const 2#32 = true ∧
  isOp2Const 0#32 = true ∧ isOp2Const 0x80000000#32 = true ∧
  (∀ x k : Word, (sub x k).value = (addWithCarry x (-k) false).value ∧
    ((sub x k).carry = (addWithCarry x (-k) false).carry ↔ k ≠ 0#32) ∧
    ((sub x k).overflow = (addWithCarry x (-k) false).overflow ↔ k ≠ 0x80000000#32))

/-- The shift that the type and length fields of a 32-bit encoding name: type 00 is LSL by the length, 0 being no shift; 01 is LSR
and 10 is ASR, by 32 for length 0 and by the length else; 11 is RRX for length 0 and ROR by the length else; and so each
shift that an Operand2 may have, LSL by 0 to 31, LSR and ASR by 1 to 32, ROR by 1 to 31 and RRX, has one field, and no other
has any (30_encoding R95, R102). -/
def Obligations.ShiftField : Prop :=
  (∀ imm5 : BitVec 5, decodeShift (ShiftType.ofNum 0b00) imm5 = (.lsl, imm5.toNat) ∧
    decodeShift (ShiftType.ofNum 0b01) imm5 = (.lsr, if imm5 = 0#5 then 32 else imm5.toNat) ∧
    decodeShift (ShiftType.ofNum 0b10) imm5 = (.asr, if imm5 = 0#5 then 32 else imm5.toNat) ∧
    decodeShift (ShiftType.ofNum 0b11) imm5 = (if imm5 = 0#5 then (.rrx, 1) else (.ror, imm5.toNat))) ∧
  (∀ (x : Word) (c : Bool), shiftC x (decodeShift (ShiftType.ofNum 0b00) 0#5).1 (decodeShift (ShiftType.ofNum 0b00) 0#5).2 c =
    (x, c)) ∧
  (∀ (op : ShiftOp) (n : Nat), (∃ ty imm5, decodeShift ty imm5 = (op, n)) ↔
    (op = .lsl ∧ n ≤ 31) ∨ ((op = .lsr ∨ op = .asr) ∧ 1 ≤ n ∧ n ≤ 32) ∨ (op = .ror ∧ 1 ≤ n ∧ n ≤ 31) ∨
      (op = .rrx ∧ n = 1)) ∧
  ∀ (ty ty' : ShiftType) (imm5 imm5' : BitVec 5), decodeShift ty imm5 = decodeShift ty' imm5' → ty = ty' ∧ imm5 = imm5'

/-- ASR divides by 2^n rounding toward minus infinity, LSR divides the unsigned value, LSL multiplies modulo 2^32, for every
length n ≥ 1; and the carry is the last bit shifted out, bit[31] for an ASR by 32 or more, 0 for an LSR or LSL by more than 32
(42_shift_operations R191 to R193). -/
def Obligations.ShiftArithmetic : Prop :=
  ∀ (x : Word) (n : Nat), 1 ≤ n →
    (asrC x n).1 = BitVec.ofInt 32 (x.toInt / 2 ^ n) ∧
    (asrC x n).2 = x.getLsbD (min (n - 1) 31) ∧
    (lsrC x n).1.toNat = x.toNat / 2 ^ n ∧
    (lsrC x n).2 = decide (x.toNat / 2 ^ (n - 1) % 2 = 1) ∧
    (lslC x n).1.toNat = x.toNat * 2 ^ n % 2 ^ 32 ∧
    (n ≤ 32 → (lslC x n).2 = decide (x.toNat * 2 ^ n / 2 ^ 32 % 2 = 1)) ∧
    (32 < n → (lslC x n).2 = false)

/-- The table of results for every shift length of 0 to 255, whole (42_shift_operations R204). -/
def Obligations.ShiftTable : Prop :=
  ∀ (x : Word) (c : Bool),
    (∀ op ∈ [ShiftOp.asr, ShiftOp.lsr, ShiftOp.lsl, ShiftOp.ror], shiftC x op 0 c = (x, c)) ∧
    (∀ n, 1 ≤ n → n ≤ 31 →
      shiftC x .asr n c = (x.sshiftRight n, x.getLsbD (n - 1)) ∧ shiftC x .lsr n c = (x >>> n, x.getLsbD (n - 1)) ∧
      shiftC x .lsl n c = (x <<< n, x.getLsbD (32 - n)) ∧ shiftC x .ror n c = (x.rotateRight n, x.getLsbD (n - 1))) ∧
    shiftC x .asr 32 c = (BitVec.fill 32 (x.getLsbD 31), x.getLsbD 31) ∧ shiftC x .lsr 32 c = (0#32, x.getLsbD 31) ∧
    shiftC x .lsl 32 c = (0#32, x.getLsbD 0) ∧ shiftC x .ror 32 c = (x, x.getLsbD 31) ∧
    (∀ n, 33 ≤ n → n ≤ 255 →
      shiftC x .asr n c = (BitVec.fill 32 (x.getLsbD 31), x.getLsbD 31) ∧ shiftC x .lsr n c = (0#32, false) ∧
      shiftC x .lsl n c = (0#32, false) ∧ shiftC x .ror n c = shiftC x .ror (n - 32) c)

/-- ROR of any length n ≥ 1: the carry is bit[31] of the result, bit k of the result is bit (k + n) mod 32 of the register, and
a length more than 32 is the same as the length less 32 (42_shift_operations R194). -/
def Obligations.RotateRight : Prop :=
  ∀ (x : Word) (n : Nat), 1 ≤ n →
    (rorC x n).2 = (rorC x n).1.getLsbD 31 ∧ (∀ k, k < 32 → (rorC x n).1.getLsbD k = x.getLsbD ((k + n) % 32)) ∧
    rorC x (n + 32) = rorC x n ∧ rorC x n = rorC x ((n - 1) % 32 + 1)

/-- RRX moves the register right by one bit, takes the carry into bit[31] and gives bit[0] as the carry; value and carry are a
33-bit rotation, so that 33 of them restore both (42_shift_operations R195). -/
def Obligations.RotateWithExtend : Prop :=
  (∀ (x : Word) (c : Bool), (rrxC x c).1.toNat = c.toNat * 2 ^ 31 + x.toNat / 2 ∧ (rrxC x c).2 = x.getLsbD 0) ∧
  ∀ (x : Word) (c : Bool), (fun p : Word × Bool => rrxC p.1 p.2)^[33] (x, c) = (x, c)

/-- Which words are Operand2 constants: an 8-bit value shifted left within the word, 0x00XY00XY, 0xXY00XY00 or 0xXYXYXYXY
(30_encoding R97). -/
def Obligations.Operand2Constants : Prop :=
  ∀ c : Word, isOp2Const c = true ↔
    (∃ v k, v ≤ 255 ∧ k ≤ 24 ∧ c.toNat = v * 2 ^ k) ∨
      ∃ b : Byte, c = 0#8 ++ b ++ 0#8 ++ b ∨ c = b ++ 0#8 ++ b ++ 0#8 ∨ c = b ++ b ++ b ++ b

/-- The expansion of the 12-bit constant field of a 32-bit encoding: with bits[11:10] = 00 the byte imm8 alone, in both low bytes
of the halfwords, in both high ones or in all four, as bits[9:8] say, and the carry left as it is; else 1 : imm12[6:0] rotated
right by imm12[11:7], with bit[31] of the result as the carry. The field names each Operand2 constant exactly once, and the
carry of its expansion is the carry of the constant (30_encoding R97, R98, R101; 41_operand2_data_processing R153). -/
def Obligations.ConstantFieldExact : Prop :=
  (∀ (b : BitVec 8) (cin : Bool),
    thumbExpandImmC (0b0000#4 ++ b) cin = (0#24 ++ b, cin) ∧
    thumbExpandImmC (0b0001#4 ++ b) cin = (0#8 ++ b ++ 0#8 ++ b, cin) ∧
    thumbExpandImmC (0b0010#4 ++ b) cin = (b ++ 0#8 ++ b ++ 0#8, cin) ∧
    thumbExpandImmC (0b0011#4 ++ b) cin = (b ++ b ++ b ++ b, cin)) ∧
  (∀ (imm12 : BitVec 12) (cin : Bool), imm12.extractLsb' 10 2 ≠ 0#2 →
    let r : Word := (0#24 ++ 1#1 ++ imm12.extractLsb' 0 7).rotateRight (imm12.extractLsb' 7 5).toNat
    thumbExpandImmC imm12 cin = (r, r.getLsbD 31)) ∧
  (∀ (imm12 : BitVec 12) (cin : Bool), constOk imm12 = true →
    isOp2Const (thumbExpandImmC imm12 cin).1 = true ∧
      thumbExpandImmC imm12 cin = op2Const (thumbExpandImmC imm12 cin).1 cin) ∧
  ∀ (c : Word) (cin : Bool), isOp2Const c = true →
    ∃ imm12 : BitVec 12, constOk imm12 = true ∧ (thumbExpandImmC imm12 cin).1 = c ∧
      ∀ other : BitVec 12, constOk other = true → (thumbExpandImmC other cin).1 = c → other = imm12

/-! ## Memory -/

/-- Byte order: a word stored at `a` is read back, and a narrower read of it sees the bytes at its own addresses, the lowest
address holding bits[7:0] (20_memory R67, R68, R70). -/
def Obligations.ByteOrder : Prop :=
  ∀ (m : Memory) (a : Nat) (v : Word), m.wf = true → a + 4 ≤ addressCount →
    (m.writeLe a 4 v).readLe a 4 = v ∧ (m.writeLe a 4 v).readLe a 1 = v &&& 0xFF#32 ∧
    (m.writeLe a 4 v).readLe (a + 1) 2 = (v >>> 8) &&& 0xFFFF#32 ∧
    (m.writeLe a 4 v).readLe (a + 2) 2 = v >>> 16 ∧
    (∀ b, (b < a ∨ a + 4 ≤ b) → (m.writeLe a 4 v).read b = m.read b)

/-- Equal memories are equal data: two memories in canonical form that read alike are the same list; and a store keeps the
form (the model's own representation of 20_memory R60: notes/assumptions/3.md). -/
def Obligations.MemoryCanonical : Prop :=
  (∀ m m' : Memory, m.wf = true → m'.wf = true → (∀ a, m.read a = m'.read a) → m = m') ∧
  ∀ (m : Memory) (a n : Nat) (v : Word), m.wf = true → a + n ≤ addressCount → (m.writeLe a n v).wf = true

/-! ## Loads and stores -/

/-- LDR and LDRT with a destination other than the PC, in every form: the address, the word loaded into Rt, the writeback,
flags and memory unchanged, nothing else (43_load_store R211 to R215; 20_memory R63 to R70). -/
def Obligations.LoadWordResults : Prop :=
  ∀ (x y z : LowReg) (rt rn rm : Reg) (u : Bool) (imm5 : BitVec 5) (imm8 : BitVec 8) (imm12 : BitVec 12)
    (imm2 : BitVec 2) (s : State),
    let base := (s.pc + 4#32) &&& 0xFFFFFFFD#32
    let off8 := if u then s.reg rn + imm8.setWidth 32 else s.reg rn - imm8.setWidth 32
    let pcRel := if u then base + imm12.setWidth 32 else base - imm12.setWidth 32
    ∀ p ∈ [(Instr.ldrLit16 x imm8, 2, x.reg, base + 4#32 * imm8.setWidth 32, (none : Option (Reg × Word))),
        (Instr.ldrReg16 x y z, 2, x.reg, s.reg y.reg + s.reg z.reg, none),
        (Instr.ldrImm16 x y imm5, 2, x.reg, s.reg y.reg + 4#32 * imm5.setWidth 32, none),
        (Instr.ldrSp16 x imm8, 2, x.reg, s.reg .sp + 4#32 * imm8.setWidth 32, none),
        (Instr.ldrImm12 rt rn imm12, 4, rt, s.reg rn + imm12.setWidth 32, none),
        (Instr.ldrNeg8 rt rn imm8, 4, rt, s.reg rn - imm8.setWidth 32, none),
        (Instr.ldrPre rt rn u imm8, 4, rt, off8, some (rn, off8)),
        (Instr.ldrPost rt rn u imm8, 4, rt, s.reg rn, some (rn, off8)),
        (Instr.ldrt rt rn imm8, 4, rt, s.reg rn + imm8.setWidth 32, none),
        (Instr.ldrReg32 rt rn rm imm2, 4, rt, s.reg rn + s.reg rm * BitVec.ofNat 32 (2 ^ imm2.toNat), none),
        (Instr.ldrLit32 u rt imm12, 4, rt, pcRel, none)],
      Ready p.1 s → Room p.2.1 s → p.2.2.1 ≠ Reg.pc → AlignOk 4 p.2.2.2.1 s → LoadOk 4 p.2.2.2.1 s →
        ∃ t, exec p.1 s = .next t ∧ t.reg p.2.2.1 = held p.2.2.1 (wordAt s.mem p.2.2.2.1.toNat) ∧
          (∀ q ∈ p.2.2.2.2, t.reg q.1 = held q.1 q.2) ∧ t.flags = s.flags ∧
          Frame (p.2.2.1 :: p.2.2.2.2.toList.map Prod.fst) s t ∧ SameMem s t ∧ Advanced p.2.1 s t

/-- LDRH, LDRHT, LDRSH and LDRSHT in every form: the address, the halfword zero-extended or sign-extended into Rt, the
writeback, flags and memory unchanged, nothing else (43_load_store R211 to R213, R216 to R219; 20_memory R63 to R70). -/
def Obligations.LoadHalfResults : Prop :=
  ∀ (x y z : LowReg) (rt rn rm : Reg) (u : Bool) (imm5 : BitVec 5) (imm8 : BitVec 8) (imm12 : BitVec 12)
    (imm2 : BitVec 2) (s : State),
    let base := (s.pc + 4#32) &&& 0xFFFFFFFD#32
    let off8 := if u then s.reg rn + imm8.setWidth 32 else s.reg rn - imm8.setWidth 32
    let pcRel := if u then base + imm12.setWidth 32 else base - imm12.setWidth 32
    let scaled := s.reg rn + s.reg rm * BitVec.ofNat 32 (2 ^ imm2.toNat)
    ∀ p ∈ [(Instr.ldrhReg16 x y z, 2, x.reg, false, s.reg y.reg + s.reg z.reg, (none : Option (Reg × Word))),
        (Instr.ldrhImm16 x y imm5, 2, x.reg, false, s.reg y.reg + 2#32 * imm5.setWidth 32, none),
        (Instr.ldrhImm12 rt rn imm12, 4, rt, false, s.reg rn + imm12.setWidth 32, none),
        (Instr.ldrhNeg8 rt rn imm8, 4, rt, false, s.reg rn - imm8.setWidth 32, none),
        (Instr.ldrhPre rt rn u imm8, 4, rt, false, off8, some (rn, off8)),
        (Instr.ldrhPost rt rn u imm8, 4, rt, false, s.reg rn, some (rn, off8)),
        (Instr.ldrht rt rn imm8, 4, rt, false, s.reg rn + imm8.setWidth 32, none),
        (Instr.ldrhReg32 rt rn rm imm2, 4, rt, false, scaled, none),
        (Instr.ldrhLit32 u rt imm12, 4, rt, false, pcRel, none),
        (Instr.ldrshReg16 x y z, 2, x.reg, true, s.reg y.reg + s.reg z.reg, none),
        (Instr.ldrshImm12 rt rn imm12, 4, rt, true, s.reg rn + imm12.setWidth 32, none),
        (Instr.ldrshNeg8 rt rn imm8, 4, rt, true, s.reg rn - imm8.setWidth 32, none),
        (Instr.ldrshPre rt rn u imm8, 4, rt, true, off8, some (rn, off8)),
        (Instr.ldrshPost rt rn u imm8, 4, rt, true, s.reg rn, some (rn, off8)),
        (Instr.ldrsht rt rn imm8, 4, rt, true, s.reg rn + imm8.setWidth 32, none),
        (Instr.ldrshReg32 rt rn rm imm2, 4, rt, true, scaled, none),
        (Instr.ldrshLit32 u rt imm12, 4, rt, true, pcRel, none)],
      Ready p.1 s → Room p.2.1 s → AlignOk 2 p.2.2.2.2.1 s → LoadOk 2 p.2.2.2.2.1 s →
        ∃ t, exec p.1 s = .next t ∧
          t.reg p.2.2.1 = (if p.2.2.2.1 then (halfAt s.mem p.2.2.2.2.1.toNat).signExtend 32
            else (halfAt s.mem p.2.2.2.2.1.toNat).setWidth 32) ∧
          (∀ q ∈ p.2.2.2.2.2, t.reg q.1 = held q.1 q.2) ∧ t.flags = s.flags ∧
          Frame (p.2.2.1 :: p.2.2.2.2.2.toList.map Prod.fst) s t ∧ SameMem s t ∧ Advanced p.2.1 s t

/-- STR, STRT, STRH and STRHT in every form: the address, the bytes of Rt stored there with the lowest first, every other byte
of memory unchanged, the writeback, flags unchanged, nothing else (43_load_store R211, R213, R220 to R223; 20_memory R63 to
R70). The bytes read back in a memory of canonical form, which every step keeps. -/
def Obligations.StoreResults : Prop :=
  ∀ (x y z : LowReg) (rt rn rm : Reg) (u : Bool) (imm5 : BitVec 5) (imm8 : BitVec 8) (imm12 : BitVec 12)
    (imm2 : BitVec 2) (s : State),
    let off8 := if u then s.reg rn + imm8.setWidth 32 else s.reg rn - imm8.setWidth 32
    let scaled := s.reg rn + s.reg rm * BitVec.ofNat 32 (2 ^ imm2.toNat)
    ∀ p ∈ [(Instr.strReg16 x y z, 2, x.reg, 4, s.reg y.reg + s.reg z.reg, (none : Option (Reg × Word))),
        (Instr.strImm16 x y imm5, 2, x.reg, 4, s.reg y.reg + 4#32 * imm5.setWidth 32, none),
        (Instr.strSp16 x imm8, 2, x.reg, 4, s.reg .sp + 4#32 * imm8.setWidth 32, none),
        (Instr.strImm12 rt rn imm12, 4, rt, 4, s.reg rn + imm12.setWidth 32, none),
        (Instr.strNeg8 rt rn imm8, 4, rt, 4, s.reg rn - imm8.setWidth 32, none),
        (Instr.strPre rt rn u imm8, 4, rt, 4, off8, some (rn, off8)),
        (Instr.strPost rt rn u imm8, 4, rt, 4, s.reg rn, some (rn, off8)),
        (Instr.strt rt rn imm8, 4, rt, 4, s.reg rn + imm8.setWidth 32, none),
        (Instr.strReg32 rt rn rm imm2, 4, rt, 4, scaled, none),
        (Instr.strhReg16 x y z, 2, x.reg, 2, s.reg y.reg + s.reg z.reg, none),
        (Instr.strhImm16 x y imm5, 2, x.reg, 2, s.reg y.reg + 2#32 * imm5.setWidth 32, none),
        (Instr.strhImm12 rt rn imm12, 4, rt, 2, s.reg rn + imm12.setWidth 32, none),
        (Instr.strhNeg8 rt rn imm8, 4, rt, 2, s.reg rn - imm8.setWidth 32, none),
        (Instr.strhPre rt rn u imm8, 4, rt, 2, off8, some (rn, off8)),
        (Instr.strhPost rt rn u imm8, 4, rt, 2, s.reg rn, some (rn, off8)),
        (Instr.strht rt rn imm8, 4, rt, 2, s.reg rn + imm8.setWidth 32, none),
        (Instr.strhReg32 rt rn rm imm2, 4, rt, 2, scaled, none)],
      Ready p.1 s → Room p.2.1 s → s.mem.wf = true → AlignOk p.2.2.2.1 p.2.2.2.2.1 s →
      StoreOk p.2.2.2.1 p.2.2.2.2.1 s →
        ∃ t, exec p.1 s = .next t ∧
          (∀ k, k < p.2.2.2.1 → t.mem.read (p.2.2.2.2.1.toNat + k) = (s.reg p.2.2.1).extractLsb' (8 * k) 8) ∧
          SameMemOutside p.2.2.2.2.1.toNat p.2.2.2.1 s t ∧
          (∀ q ∈ p.2.2.2.2.2, t.reg q.1 = held q.1 q.2) ∧ t.flags = s.flags ∧
          Frame (p.2.2.2.2.2.toList.map Prod.fst) s t ∧ Advanced p.2.1 s t

/-- LDR of the PC, in every form that admits it: from a word-aligned address, outside an IT block or last in one, the run goes
on at the word loaded with bit[0] removed when that bit is 1 and the address is in no IT block, with the writeback done; when
it is 0 the outcome is
UsageFault(INVSTATE) (43_load_store R214, R226; 10_state R25; 44_branch_and_conditional R254). -/
def Obligations.LoadPcResults : Prop :=
  ∀ (rn rm : Reg) (u : Bool) (imm8 : BitVec 8) (imm12 : BitVec 12) (imm2 : BitVec 2) (s : State),
    let base := (s.pc + 4#32) &&& 0xFFFFFFFD#32
    let off8 := if u then s.reg rn + imm8.setWidth 32 else s.reg rn - imm8.setWidth 32
    let pcRel := if u then base + imm12.setWidth 32 else base - imm12.setWidth 32
    ∀ p ∈ [(Instr.ldrImm12 .pc rn imm12, s.reg rn + imm12.setWidth 32, (none : Option (Reg × Word))),
        (Instr.ldrNeg8 .pc rn imm8, s.reg rn - imm8.setWidth 32, none),
        (Instr.ldrPre .pc rn u imm8, off8, some (rn, off8)), (Instr.ldrPost .pc rn u imm8, s.reg rn, some (rn, off8)),
        (Instr.ldrReg32 .pc rn rm imm2, s.reg rn + s.reg rm * BitVec.ofNat 32 (2 ^ imm2.toNat), none),
        (Instr.ldrLit32 u .pc imm12, pcRel, none)],
      Ready p.1 s → s.itstate.length ≤ 1 → p.2.1.toNat % 4 = 0 → LoadOk 4 p.2.1 s →
        ((wordAt s.mem p.2.1.toNat).getLsbD 0 = true →
          ¬InItBlock s.mem s.cfg (wordAt s.mem p.2.1.toNat &&& 0xFFFFFFFE#32) →
          ∃ t, exec p.1 s = .next t ∧ Jumped (wordAt s.mem p.2.1.toNat &&& 0xFFFFFFFE#32) s t ∧
            (∀ q ∈ p.2.2, t.reg q.1 = held q.1 q.2) ∧ t.flags = s.flags ∧
            Frame (p.2.2.toList.map Prod.fst) s t ∧ SameMem s t) ∧
        ((wordAt s.mem p.2.1.toNat).getLsbD 0 = false →
          exec p.1 s = .fault (.usageFault .invstate s.pc))

/-- LDM and LDMDB: the register of number j gets the word at its place in ascending order from the start address, LR and PC
after the others; the base is written back where the form says; with PC in the list the run goes on at its word with bit[0]
removed, which must be 1, the instruction last in its block and the address in no IT block (43_load_store R224, R226;
44_branch_and_conditional R244; 20_memory R70). -/
def Obligations.LoadMultipleResults : Prop :=
  ∀ (s : State),
    (∀ (rn : LowReg) (list : BitVec 8), Ready (.ldm16 rn list) s → Room 2 s →
      WordsOk (rank list 8) (s.reg rn.reg) s →
        ∃ t, exec (.ldm16 rn list) s = .next t ∧
          (∀ j, j < 8 → list.getLsbD j = true →
            t.reg (Reg.ofNum j) = wordAt s.mem ((s.reg rn.reg).toNat + 4 * rank list j)) ∧
          (list.getLsbD rn.num = false → t.reg rn.reg = s.reg rn.reg + BitVec.ofNat 32 (4 * rank list 8)) ∧
          t.flags = s.flags ∧ Frame (rn.reg :: lowRegList list) s t ∧ SameMem s t ∧ Advanced 2 s t) ∧
    (∀ (before w : Bool) (rn : Reg) (p m : Bool) (list : BitVec 13),
      let i : Instr := if before then .ldmdb w rn p m list else .ldm32 w rn p m list
      let k := rank list 13 + m.toNat + p.toNat
      let start := if before then s.reg rn - BitVec.ofNat 32 (4 * k) else s.reg rn
      let pcWord := wordAt s.mem (start.toNat + 4 * (rank list 13 + m.toNat))
      Ready i s → WordsOk k start s → (p = false → Room 4 s) →
      (p = true → s.itstate.length ≤ 1 ∧ pcWord.getLsbD 0 = true ∧ ¬InItBlock s.mem s.cfg (pcWord &&& 0xFFFFFFFE#32)) →
        ∃ t, exec i s = .next t ∧
          (∀ j, j < 13 → list.getLsbD j = true →
            t.reg (Reg.ofNum j) = wordAt s.mem (start.toNat + 4 * rank list j)) ∧
          (m = true → t.reg .lr = wordAt s.mem (start.toNat + 4 * rank list 13)) ∧
          (w = true → t.reg rn = held rn (if before then start else s.reg rn + BitVec.ofNat 32 (4 * k))) ∧
          (if p then Jumped (pcWord &&& 0xFFFFFFFE#32) s t else Advanced 4 s t) ∧
          t.flags = s.flags ∧ Frame ((if w then [rn] else []) ++ regList list m) s t ∧ SameMem s t)

/-- POP in its three encodings: the registers of the list get the words from SP on, in ascending order, SP goes up by four for
each, and with PC in the list the run goes on at its word with bit[0] removed, which must be 1, the instruction last in its
block and the address in no IT block (43_load_store R225, R226; 44_branch_and_conditional R244; 20_memory R70). -/
def Obligations.PopResults : Prop :=
  ∀ (s : State), let sp := s.reg .sp
    (∀ (p : Bool) (list : BitVec 8),
      let k := rank list 8 + p.toNat
      let pcWord := wordAt s.mem (sp.toNat + 4 * rank list 8)
      Ready (.pop16 p list) s → WordsOk k sp s → (p = false → Room 2 s) →
      (p = true → s.itstate.length ≤ 1 ∧ pcWord.getLsbD 0 = true ∧ ¬InItBlock s.mem s.cfg (pcWord &&& 0xFFFFFFFE#32)) →
        ∃ t, exec (.pop16 p list) s = .next t ∧
          (∀ j, j < 8 → list.getLsbD j = true → t.reg (Reg.ofNum j) = wordAt s.mem (sp.toNat + 4 * rank list j)) ∧
          t.reg .sp = sp + BitVec.ofNat 32 (4 * k) ∧
          (if p then Jumped (pcWord &&& 0xFFFFFFFE#32) s t else Advanced 2 s t) ∧
          t.flags = s.flags ∧ Frame (.sp :: lowRegList list) s t ∧ SameMem s t) ∧
    (∀ (p m : Bool) (list : BitVec 13),
      let k := rank list 13 + m.toNat + p.toNat
      let pcWord := wordAt s.mem (sp.toNat + 4 * (rank list 13 + m.toNat))
      Ready (.popW p m list) s → WordsOk k sp s → (p = false → Room 4 s) →
      (p = true → s.itstate.length ≤ 1 ∧ pcWord.getLsbD 0 = true ∧ ¬InItBlock s.mem s.cfg (pcWord &&& 0xFFFFFFFE#32)) →
        ∃ t, exec (.popW p m list) s = .next t ∧
          (∀ j, j < 13 → list.getLsbD j = true → t.reg (Reg.ofNum j) = wordAt s.mem (sp.toNat + 4 * rank list j)) ∧
          (m = true → t.reg .lr = wordAt s.mem (sp.toNat + 4 * rank list 13)) ∧
          t.reg .sp = sp + BitVec.ofNat 32 (4 * k) ∧
          (if p then Jumped (pcWord &&& 0xFFFFFFFE#32) s t else Advanced 4 s t) ∧
          t.flags = s.flags ∧ Frame (.sp :: regList list m) s t ∧ SameMem s t) ∧
    (∀ rt : Reg, Ready (.popWOne rt) s → WordsOk 1 sp s → (rt ≠ .pc → Room 4 s) →
      (rt = .pc → s.itstate.length ≤ 1 ∧ (wordAt s.mem sp.toNat).getLsbD 0 = true ∧
        ¬InItBlock s.mem s.cfg (wordAt s.mem sp.toNat &&& 0xFFFFFFFE#32)) →
        ∃ t, exec (.popWOne rt) s = .next t ∧ t.reg .sp = sp + 4#32 ∧
          (if rt = .pc then Jumped (wordAt s.mem sp.toNat &&& 0xFFFFFFFE#32) s t
            else Advanced 4 s t ∧ t.reg rt = wordAt s.mem sp.toNat) ∧
          t.flags = s.flags ∧ Frame [.sp, rt] s t ∧ SameMem s t)

/-! ## Faults and refusals of the accesses -/

/-- An unaligned access by an instruction of UnalignedOK traps with UsageFault(UNALIGNED, a) when UNALIGN_TRP is 1 or the
region does not support it; an unaligned LDM always does, and POP never, SP being word-aligned (20_memory R62 to R66;
43_load_store R224, R225, R227; 60_exceptions R270). For LDR of the PC, which 43_load_store R226 refuses from an unaligned
address, that the trap comes before that refusal is the model's choice: notes/assumptions/12.md. -/
def Obligations.UnalignedFaults : Prop :=
  (∀ (i : Instr) (s : State) (acc : Access) (a : Word) (n : Nat), i.accesses s = some (acc, a, n) → Ready i s →
    (i.loadsPc = true → s.itstate.length ≤ 1) → a.toNat % n ≠ 0 →
    (s.unalignTrp = true ∨ s.cfg.supportsUnaligned a.toNat = false) →
      exec i s = .fault (.usageFault (.unaligned a) s.pc)) ∧
  (∀ (s : State) (rn : LowReg) (list : BitVec 8), Ready (.ldm16 rn list) s → (s.reg rn.reg).toNat % 4 ≠ 0 →
    exec (.ldm16 rn list) s = .fault (.usageFault (.unaligned (s.reg rn.reg)) s.pc)) ∧
  (∀ (s : State) (before w : Bool) (rn : Reg) (p m : Bool) (list : BitVec 13),
    let i : Instr := if before then .ldmdb w rn p m list else .ldm32 w rn p m list
    let k := rank list 13 + m.toNat + p.toNat
    let start := if before then s.reg rn - BitVec.ofNat 32 (4 * k) else s.reg rn
    Ready i s → (p = true → s.itstate.length ≤ 1) → start.toNat % 4 ≠ 0 →
      exec i s = .fault (.usageFault (.unaligned start) s.pc)) ∧
  (∀ (s : State) (p m : Bool) (list8 : BitVec 8) (list13 : BitVec 13) (rt : Reg) (a q : Word),
    exec (.pop16 p list8) s ≠ .fault (.usageFault (.unaligned a) q) ∧
    exec (.popW p m list13) s ≠ .fault (.usageFault (.unaligned a) q) ∧
    exec (.popWOne rt) s ≠ .fault (.usageFault (.unaligned a) q))

/-- After the alignment check a single load or store that the launch memory does not admit is stuck, one across the top of the
address space is refused, and a store into the program text is refused before admission is asked (20_memory R67, R70, R72,
R77; 60_exceptions R275). -/
def Obligations.UnadmittedAccess : Prop :=
  ∀ (i : Instr) (s : State) (acc : Access) (a : Word) (n : Nat), i.accesses s = some (acc, a, n) → Ready i s →
    AlignOk n a s → (i.loadsPc = true → s.itstate.length ≤ 1 ∧ a.toNat % 4 = 0) →
    (addressCount < a.toNat + n → exec i s = .refused .addressTop) ∧
    (a.toNat + n ≤ addressCount → acc = .write → s.cfg.touchesText a.toNat n = true →
      exec i s = .refused (.textStore a.toNat)) ∧
    (a.toNat + n ≤ addressCount → (acc = .write → s.cfg.touchesText a.toNat n = false) →
      s.cfg.admits acc a.toNat n = false → exec i s = .fault (.stuck acc a.toNat))

/-- Where a multiple load from an aligned address stops: at its first word that crosses the top of the address space
(refused) or that the launch memory does not admit (stuck), and, with every word read, at a word for the PC whose bit[0] is 0
(UsageFault(INVSTATE)) (43_load_store R224 to R226; 20_memory R67, R70, R72; 60_exceptions R275). -/
def Obligations.MultipleLoadStops : Prop :=
  ∀ (i : Instr) (s : State) (a : Word) (k : Nat), i.multiple s = some (a, k) → Ready i s →
    (i.loadsPc = true → s.itstate.length ≤ 1) →
    (∀ j, j < k → WordsOk j a s → addressCount < a.toNat + 4 * j + 4 → exec i s = .refused .addressTop) ∧
    (∀ j, j < k → WordsOk j a s → a.toNat + 4 * j + 4 ≤ addressCount →
      s.cfg.admits .read (a.toNat + 4 * j) 4 = false → exec i s = .fault (.stuck .read (a.toNat + 4 * j))) ∧
    (WordsOk k a s → i.loadsPc = true → (wordAt s.mem (a.toNat + 4 * (k - 1))).getLsbD 0 = false →
      exec i s = .fault (.usageFault .invstate s.pc))

/-- What else is refused: a term that is no instruction, once the condition holds; IT, CBZ, CBNZ, `MOVS Rd, Rm` and B<cond> inside an
IT block; a branch or load of the PC before the last place of a block; the advance of a failed condition across the top of the
address space; and LDR PC from an unaligned address that is not trapped (41_operand2_data_processing R151;
44_branch_and_conditional R244, R255; 30_encoding R118; 43_load_store R226; 92_eei_decisions D4). -/
def Obligations.Refusals : Prop :=
  (∀ (i : Instr) (s : State), (i.takesCondition = true → conditionPassed i.ownCond s = true) → i.wellFormed = false →
    exec i s = .refused .form) ∧
  (∀ (s : State) (rn : LowReg) (imm6 : BitVec 6) (c : Cond) (mask : BitVec 4), s.itstate ≠ [] →
    ∀ i ∈ [Instr.cbz rn imm6, Instr.cbnz rn imm6, Instr.it c mask], i.wellFormed = true →
      exec i s = .refused .itPlacement) ∧
  (∀ (s : State) (rd rm : LowReg) (c : Cond) (imm8 : BitVec 8) (imm20 : BitVec 20), s.itstate ≠ [] →
    ∀ i ∈ [Instr.movsReg16 rd rm, Instr.bCond16 c imm8, Instr.bCond32 c imm20], Ready i s →
      exec i s = .refused .itPlacement) ∧
  (∀ (s : State) (rm : Reg) (imm11 : BitVec 11) (imm24 : BitVec 24) (i : Instr), 2 ≤ s.itstate.length →
    (i ∈ [Instr.bx rm, Instr.blx rm, Instr.b16 imm11, Instr.b32 imm24, Instr.bl imm24] ∨ i.loadsPc = true) → Ready i s →
      exec i s = .refused .itPlacement) ∧
  (∀ (i : Instr) (s : State), i.takesCondition = true → conditionPassed i.ownCond s = false → ¬Room (width i) s →
    exec i s = .refused .addressTop) ∧
  (∀ (i : Instr) (s : State) (acc : Access) (a : Word) (n : Nat), i.loadsPc = true → i.accesses s = some (acc, a, n) →
    Ready i s → s.itstate.length ≤ 1 → a.toNat % 4 ≠ 0 → AlignOk 4 a s → exec i s = .refused .unalignedPcLoad)

/-! ## Branches and IT -/

/-- A branch into the middle of an IT block is refused: B, B<cond> and BL to their label, CBZ and CBNZ where they branch, BX and
BLX to a register whose bit[0] is 1, and LDR, LDM, LDMDB and POP of a word for the PC whose bit[0] is 1; and nothing else is
refused so (44_branch_and_conditional R244; 93_implementation_defined U6 (g)). Where the blocks of the program are is the
model's reading of memory: notes/assumptions/11.md. -/
def Obligations.BranchIntoBlockRefused : Prop :=
  (∀ (c : Cond) (imm8 : BitVec 8) (imm11 : BitVec 11) (imm20 : BitVec 20) (imm24 : BitVec 24) (s : State),
    ∀ p ∈ [(Instr.bCond16 c imm8, 0, (imm8 ++ 0#1 : BitVec 9).signExtend 32),
        (Instr.bCond32 c imm20, 0, (imm20 ++ 0#1 : BitVec 21).signExtend 32),
        (Instr.b16 imm11, 1, (imm11 ++ 0#1 : BitVec 12).signExtend 32),
        (Instr.b32 imm24, 1, (imm24 ++ 0#1 : BitVec 25).signExtend 32),
        (Instr.bl imm24, 1, (imm24 ++ 0#1 : BitVec 25).signExtend 32)],
      let target : Word := s.pc + 4#32 + p.2.2
      Ready p.1 s → s.itstate.length ≤ p.2.1 → InItBlock s.mem s.cfg target →
        exec p.1 s = .refused (.branchIntoBlock target)) ∧
  (∀ (rn : LowReg) (imm6 : BitVec 6) (s : State),
    let target : Word := s.pc + 4#32 + 2#32 * imm6.setWidth 32
    s.itstate = [] → InItBlock s.mem s.cfg target →
    (s.reg rn.reg = 0#32 → exec (.cbz rn imm6) s = .refused (.branchIntoBlock target)) ∧
    (s.reg rn.reg ≠ 0#32 → exec (.cbnz rn imm6) s = .refused (.branchIntoBlock target))) ∧
  (∀ (rm : Reg) (s : State),
    let target : Word := s.reg rm &&& 0xFFFFFFFE#32
    s.itstate.length ≤ 1 → (s.reg rm).getLsbD 0 = true → InItBlock s.mem s.cfg target →
    ∀ i ∈ [Instr.bx rm, Instr.blx rm], Ready i s → exec i s = .refused (.branchIntoBlock target)) ∧
  (∀ (i : Instr) (s : State) (acc : Access) (a : Word) (n : Nat),
    let target : Word := wordAt s.mem a.toNat &&& 0xFFFFFFFE#32
    i.loadsPc = true → i.accesses s = some (acc, a, n) → Ready i s → s.itstate.length ≤ 1 → a.toNat % 4 = 0 →
    LoadOk 4 a s → (wordAt s.mem a.toNat).getLsbD 0 = true → InItBlock s.mem s.cfg target →
      exec i s = .refused (.branchIntoBlock target)) ∧
  (∀ (i : Instr) (s : State) (a : Word) (k : Nat),
    let pcWord := wordAt s.mem (a.toNat + 4 * (k - 1))
    i.multiple s = some (a, k) → Ready i s → i.loadsPc = true → s.itstate.length ≤ 1 → WordsOk k a s →
    pcWord.getLsbD 0 = true → InItBlock s.mem s.cfg (pcWord &&& 0xFFFFFFFE#32) →
      exec i s = .refused (.branchIntoBlock (pcWord &&& 0xFFFFFFFE#32))) ∧
  ∀ (i : Instr) (s : State) (target : Word), exec i s = .refused (.branchIntoBlock target) →
    i.writesPc = true ∧ InItBlock s.mem s.cfg target

/-- B, B<cond> and BL: the target is the address of the instruction plus 4 plus the sign-extended offset; BL leaves the address
of the next instruction in LR with bit[0] set; no flag and no other register changes. So where the target is in no IT block:
BranchIntoBlockRefused has the others (44_branch_and_conditional R244, R247, R248, R253; 10_state R24; 30_encoding R103). -/
def Obligations.BranchResults : Prop :=
  ∀ (c : Cond) (imm8 : BitVec 8) (imm11 : BitVec 11) (imm20 : BitVec 20) (imm24 : BitVec 24) (s : State),
    ∀ p ∈ [(Instr.bCond16 c imm8, 0, false, (imm8 ++ 0#1 : BitVec 9).signExtend 32),
        (Instr.bCond32 c imm20, 0, false, (imm20 ++ 0#1 : BitVec 21).signExtend 32),
        (Instr.b16 imm11, 1, false, (imm11 ++ 0#1 : BitVec 12).signExtend 32),
        (Instr.b32 imm24, 1, false, (imm24 ++ 0#1 : BitVec 25).signExtend 32),
        (Instr.bl imm24, 1, true, (imm24 ++ 0#1 : BitVec 25).signExtend 32)],
      Ready p.1 s → s.itstate.length ≤ p.2.1 → ¬InItBlock s.mem s.cfg (s.pc + 4#32 + p.2.2.2) →
        ∃ t, exec p.1 s = .next t ∧ Jumped (s.pc + 4#32 + p.2.2.2) s t ∧
          (p.2.2.1 = true → t.reg .lr = (s.pc + 4#32) ||| 1#32) ∧ t.flags = s.flags ∧
          Frame (if p.2.2.1 then [.lr] else []) s t ∧ SameMem s t

/-- CBZ branches exactly when the register is zero and CBNZ when it is not, forward only, to the address of the instruction
plus 4 plus the offset, which must be in no IT block; neither reads or writes a flag (44_branch_and_conditional R244, R249,
R250, R253; 30_encoding R103). -/
def Obligations.CompareBranchResults : Prop :=
  ∀ (rn : LowReg) (imm6 : BitVec 6) (s : State), let target : Word := s.pc + 4#32 + 2#32 * imm6.setWidth 32
    s.itstate = [] →
    ∀ p ∈ [(Instr.cbz rn imm6, decide (s.reg rn.reg = 0#32)), (Instr.cbnz rn imm6, decide (s.reg rn.reg ≠ 0#32))],
      (p.2 = false → Room 2 s) → (p.2 = true → ¬InItBlock s.mem s.cfg target) →
        ∃ t, exec p.1 s = .next t ∧ t.pc = (if p.2 then target else s.pc + 2#32) ∧ t.itstate = [] ∧
          t.flags = s.flags ∧ Frame [] s t ∧ SameMem s t

/-- BX and BLX: bit[0] = 1 of the register branches to it with bit[0] cleared, where that address is in no IT block, BLX leaving the address of the next instruction
in LR with bit[0] set (the register is read first, so `BLX LR` goes to the old LR); bit[0] = 0 is UsageFault(INVSTATE)
(44_branch_and_conditional R244, R251, R252, R254; 10_state R25). -/
def Obligations.RegisterBranchResults : Prop :=
  ∀ (rm : Reg) (s : State), s.itstate.length ≤ 1 →
    ∀ p ∈ [(Instr.bx rm, false), (Instr.blx rm, true)], Ready p.1 s →
      ((s.reg rm).getLsbD 0 = true → ¬InItBlock s.mem s.cfg (s.reg rm &&& 0xFFFFFFFE#32) →
        ∃ t, exec p.1 s = .next t ∧ Jumped (s.reg rm &&& 0xFFFFFFFE#32) s t ∧
          (p.2 = true → t.reg .lr = (s.pc + 2#32) ||| 1#32) ∧ t.flags = s.flags ∧
          Frame (if p.2 then [.lr] else []) s t ∧ SameMem s t) ∧
      ((s.reg rm).getLsbD 0 = false → exec p.1 s = .fault (.usageFault .invstate s.pc))

/-- IT with up to three letters opens a block of the conditions its letters name, the condition for T and its inverse for E (AL
only with no E), and does nothing else; and every mask the decoder admits is the mask of some letters
(44_branch_and_conditional R244; 30_encoding R117; the AL masks: notes/assumptions/13.md). -/
def Obligations.ItOpensBlock : Prop :=
  (∀ (s : State) (c : Cond) (letters : List Bool), letters.length ≤ 3 → (c = .al → ∀ l ∈ letters, l = true) →
    s.itstate = [] → Room 2 s →
      exec (.it c (itMask c letters)) s =
        .next { s with pc := s.pc + 2#32, itstate := c :: letters.map fun l => if l then c else c.inverse }) ∧
  ∀ (c : Cond) (mask : BitVec 4), itOk c mask = true →
    ∃ letters : List Bool, letters.length ≤ 3 ∧ (c = .al → ∀ l ∈ letters, l = true) ∧ itMask c letters = mask

/-! ## Special registers -/

/-- The Read functions: the implemented bits of the register when privileged, zero when not, CONTROL at any privilege; nothing
else changes and no exception is raised (40_special_register_access R131 to R133, R135, R137, R139, R141, R143, R146). -/
def Obligations.ReadFunctionResults : Prop :=
  ∀ (rd : Reg) (s : State),
    let priv := s.control.getLsbD 0 = false
    ∀ p ∈ [(Instr.getPrimask rd, if priv then s.primask &&& 1#32 else 0#32),
        (Instr.getFaultmask rd, if priv then s.faultmask &&& 1#32 else 0#32),
        (Instr.getBasepri rd, if priv then s.basepri &&& prioMask s.cfg.prioBits else 0#32),
        (Instr.getControl rd, s.control &&& 7#32), (Instr.getMsp rd, if priv then s.msp &&& 0xFFFFFFFC#32 else 0#32),
        (Instr.getPsp rd, if priv then s.psp &&& 0xFFFFFFFC#32 else 0#32)],
      Ready p.1 s → Room 4 s → ∃ t, exec p.1 s = .next t ∧ WritesResult 4 rd p.2 s.flags s t

/-- The Write functions: privileged, the implemented bits of the register take those of Rn and its other bits stay; not
privileged, the write is ignored; nothing else changes (40_special_register_access R131, R132, R134, R136, R138, R140, R142,
R144, R146). -/
def Obligations.WriteFunctionResults : Prop :=
  ∀ (rn : Reg) (s : State),
    let v := s.reg rn
    let ctl := if s.cfg.hasFP then 7#32 else 3#32
    ∀ p ∈ [(Instr.setPrimask rn, { s with primask := (s.primask &&& 0xFFFFFFFE#32) ||| (v &&& 1#32) }),
        (Instr.setFaultmask rn, { s with faultmask := (s.faultmask &&& 0xFFFFFFFE#32) ||| (v &&& 1#32) }),
        (Instr.setBasepri rn,
          { s with basepri := (s.basepri &&& 0xFFFFFF00#32) ||| (v &&& 0xFF#32 &&& prioMask s.cfg.prioBits) }),
        (Instr.setControl rn, { s with control := (s.control &&& ~~~ctl) ||| (v &&& ctl) }),
        (Instr.setMsp rn, { s with msp := v &&& 0xFFFFFFFC#32 }), (Instr.setPsp rn, { s with psp := v &&& 0xFFFFFFFC#32 })],
      Ready p.1 s → Room 4 s →
        exec p.1 s = .next ((if s.control.getLsbD 0 = false then p.2 else s).advanced 4)

/-- SP is the PSP when CONTROL[1] is 1 and the MSP when it is 0; its bits[1:0] read as zero and ignore writes; a write reaches
the one it names and leaves the other; and the priority mask of BASEPRI is the top `prioBits` bits of its byte
(10_state R21, R34; 60_exceptions R278). -/
def Obligations.BankedStackPointer : Prop :=
  (∀ s : State, s.reg .sp = (if s.control.getLsbD 1 then s.psp else s.msp) &&& 0xFFFFFFFC#32) ∧
  (∀ (s : State) (v : Word), (s.setReg .sp v).reg .sp = v &&& 0xFFFFFFFC#32 ∧
    (s.control.getLsbD 1 = true → (s.setReg .sp v).msp = s.msp) ∧
    (s.control.getLsbD 1 = false → (s.setReg .sp v).psp = s.psp)) ∧
  ∀ n k : Nat, 3 ≤ n → n ≤ 8 → ((prioMask n).getLsbD k = true ↔ 8 - n ≤ k ∧ k < 8)
end

