-- ==== Sys2Proof/Laws/State.lean ====
section
/-! SUPPORT. What every update of the state leaves and what it changes, one lemma per field per update. -/

namespace Sys2Proof.Machine

/-! ## `setSp` -/

@[simp] theorem State.setSp_gprs (s : State) (v : Word) : (s.setSp v).gprs = s.gprs := by
  unfold State.setSp; split <;> rfl
@[simp] theorem State.setSp_lr (s : State) (v : Word) : (s.setSp v).lr = s.lr := by
  unfold State.setSp; split <;> rfl
@[simp] theorem State.setSp_pc (s : State) (v : Word) : (s.setSp v).pc = s.pc := by
  unfold State.setSp; split <;> rfl
@[simp] theorem State.setSp_flags (s : State) (v : Word) : (s.setSp v).flags = s.flags := by
  unfold State.setSp; split <;> rfl
@[simp] theorem State.setSp_primask (s : State) (v : Word) : (s.setSp v).primask = s.primask := by
  unfold State.setSp; split <;> rfl
@[simp] theorem State.setSp_faultmask (s : State) (v : Word) : (s.setSp v).faultmask = s.faultmask := by
  unfold State.setSp; split <;> rfl
@[simp] theorem State.setSp_basepri (s : State) (v : Word) : (s.setSp v).basepri = s.basepri := by
  unfold State.setSp; split <;> rfl
@[simp] theorem State.setSp_control (s : State) (v : Word) : (s.setSp v).control = s.control := by
  unfold State.setSp; split <;> rfl
@[simp] theorem State.setSp_unalignTrp (s : State) (v : Word) : (s.setSp v).unalignTrp = s.unalignTrp := by
  unfold State.setSp; split <;> rfl
@[simp] theorem State.setSp_itstate (s : State) (v : Word) : (s.setSp v).itstate = s.itstate := by
  unfold State.setSp; split <;> rfl
@[simp] theorem State.setSp_mem (s : State) (v : Word) : (s.setSp v).mem = s.mem := by
  unfold State.setSp; split <;> rfl
@[simp] theorem State.setSp_cfg (s : State) (v : Word) : (s.setSp v).cfg = s.cfg := by
  unfold State.setSp; split <;> rfl

/-! ## `setReg` -/

@[simp] theorem State.setReg_pc (s : State) (r : Reg) (v : Word) : (s.setReg r v).pc = s.pc := by
  cases r <;> simp [State.setReg]
@[simp] theorem State.setReg_flags (s : State) (r : Reg) (v : Word) : (s.setReg r v).flags = s.flags := by
  cases r <;> simp [State.setReg]
@[simp] theorem State.setReg_primask (s : State) (r : Reg) (v : Word) : (s.setReg r v).primask = s.primask := by
  cases r <;> simp [State.setReg]
@[simp] theorem State.setReg_faultmask (s : State) (r : Reg) (v : Word) : (s.setReg r v).faultmask = s.faultmask := by
  cases r <;> simp [State.setReg]
@[simp] theorem State.setReg_basepri (s : State) (r : Reg) (v : Word) : (s.setReg r v).basepri = s.basepri := by
  cases r <;> simp [State.setReg]
@[simp] theorem State.setReg_control (s : State) (r : Reg) (v : Word) : (s.setReg r v).control = s.control := by
  cases r <;> simp [State.setReg]
@[simp] theorem State.setReg_unalignTrp (s : State) (r : Reg) (v : Word) :
    (s.setReg r v).unalignTrp = s.unalignTrp := by
  cases r <;> simp [State.setReg]
@[simp] theorem State.setReg_itstate (s : State) (r : Reg) (v : Word) : (s.setReg r v).itstate = s.itstate := by
  cases r <;> simp [State.setReg]
@[simp] theorem State.setReg_mem (s : State) (r : Reg) (v : Word) : (s.setReg r v).mem = s.mem := by
  cases r <;> simp [State.setReg]
@[simp] theorem State.setReg_cfg (s : State) (r : Reg) (v : Word) : (s.setReg r v).cfg = s.cfg := by
  cases r <;> simp [State.setReg]

/-- Which stack pointer SP names depends on CONTROL alone. -/
theorem State.usesPsp_eq (s : State) : s.usesPsp = s.control.getLsbD 1 := rfl

@[simp] theorem State.setReg_usesPsp (s : State) (r : Reg) (v : Word) : (s.setReg r v).usesPsp = s.usesPsp := by
  simp [State.usesPsp]

/-- A write of a register other than SP keeps MSP; a write of SP keeps it when SP names PSP. -/
theorem State.setReg_msp (s : State) (r : Reg) (v : Word) (h : r ≠ .sp ∨ s.usesPsp = true) :
    (s.setReg r v).msp = s.msp := by
  cases r <;> simp_all [State.setReg, State.setSp]

/-- A write of a register other than SP keeps PSP; a write of SP keeps it when SP names MSP. -/
theorem State.setReg_psp (s : State) (r : Reg) (v : Word) (h : r ≠ .sp ∨ s.usesPsp = false) :
    (s.setReg r v).psp = s.psp := by
  cases r <;> simp_all [State.setReg, State.setSp]

/-- A stack pointer value with bits[1:0] dropped twice is one with them dropped once. -/
@[simp] theorem stackAligned_stackAligned (v : Word) : stackAligned (stackAligned v) = stackAligned v := by
  simp [stackAligned, BitVec.and_assoc]

/-- SP always reads with bits[1:0] zero. -/
@[simp] theorem State.stackAligned_sp (s : State) : stackAligned s.sp = s.sp := by
  simp [State.sp]

/-- What is read back from the register written. -/
theorem State.reg_setReg_self (s : State) (r : Reg) (v : Word) (h : r ≠ .pc) : (s.setReg r v).reg r = held r v := by
  cases r <;> simp_all [State.setReg, State.reg, held]
  simp only [State.sp, State.setSp]
  split <;> simp_all [State.usesPsp, stackAligned, BitVec.and_assoc]

/-- What is read back from every other register. -/
theorem State.reg_setReg_ne (s : State) (r q : Reg) (v : Word) (h : q ≠ r) : (s.setReg r v).reg q = s.reg q := by
  cases r <;> cases q <;> first | exact absurd rfl h | rfl | simp [State.setReg, State.reg]

/-- Reading a register depends on the registers, CONTROL and the PC. -/
theorem State.reg_congr {s t : State} (hg : t.gprs = s.gprs) (hm : t.msp = s.msp) (hp : t.psp = s.psp) (hl : t.lr = s.lr)
    (hc : t.control = s.control) {r : Reg} (hr : r ≠ .pc) : t.reg r = s.reg r := by
  cases r <;> simp_all [State.reg, State.sp, State.usesPsp]

/-! ## Updates of one field -/

@[simp] theorem State.reg_withPc (s : State) (p : Word) (l : List Cond) {r : Reg} (hr : r ≠ .pc) :
    State.reg { s with pc := p, itstate := l } r = s.reg r := by
  cases r <;> first | rfl | exact absurd rfl hr
@[simp] theorem State.reg_withMem (s : State) (m : Memory) (r : Reg) : State.reg { s with mem := m } r = s.reg r := by
  cases r <;> rfl
@[simp] theorem State.reg_withFlags' (s : State) (f : Flags) (r : Reg) :
    State.reg { s with flags := f } r = s.reg r := by
  cases r <;> rfl
@[simp] theorem State.setReg_withMem (s : State) (m : Memory) (r : Reg) (v : Word) :
    State.setReg { s with mem := m } r v = { s.setReg r v with mem := m } := by
  cases r <;> simp [State.setReg, State.setSp, State.usesPsp]
  split <;> rfl

/-! ## `withFlags` -/

@[simp] theorem State.withFlags_gprs (s : State) (b : Bool) (f : Flags) : (s.withFlags b f).gprs = s.gprs := by
  cases b <;> rfl
@[simp] theorem State.withFlags_msp (s : State) (b : Bool) (f : Flags) : (s.withFlags b f).msp = s.msp := by
  cases b <;> rfl
@[simp] theorem State.withFlags_psp (s : State) (b : Bool) (f : Flags) : (s.withFlags b f).psp = s.psp := by
  cases b <;> rfl
@[simp] theorem State.withFlags_lr (s : State) (b : Bool) (f : Flags) : (s.withFlags b f).lr = s.lr := by
  cases b <;> rfl
@[simp] theorem State.withFlags_pc (s : State) (b : Bool) (f : Flags) : (s.withFlags b f).pc = s.pc := by
  cases b <;> rfl
@[simp] theorem State.withFlags_primask (s : State) (b : Bool) (f : Flags) : (s.withFlags b f).primask = s.primask := by
  cases b <;> rfl
@[simp] theorem State.withFlags_faultmask (s : State) (b : Bool) (f : Flags) :
    (s.withFlags b f).faultmask = s.faultmask := by
  cases b <;> rfl
@[simp] theorem State.withFlags_basepri (s : State) (b : Bool) (f : Flags) : (s.withFlags b f).basepri = s.basepri := by
  cases b <;> rfl
@[simp] theorem State.withFlags_control (s : State) (b : Bool) (f : Flags) : (s.withFlags b f).control = s.control := by
  cases b <;> rfl
@[simp] theorem State.withFlags_unalignTrp (s : State) (b : Bool) (f : Flags) :
    (s.withFlags b f).unalignTrp = s.unalignTrp := by
  cases b <;> rfl
@[simp] theorem State.withFlags_itstate (s : State) (b : Bool) (f : Flags) : (s.withFlags b f).itstate = s.itstate := by
  cases b <;> rfl
@[simp] theorem State.withFlags_mem (s : State) (b : Bool) (f : Flags) : (s.withFlags b f).mem = s.mem := by
  cases b <;> rfl
@[simp] theorem State.withFlags_cfg (s : State) (b : Bool) (f : Flags) : (s.withFlags b f).cfg = s.cfg := by
  cases b <;> rfl
@[simp] theorem State.withFlags_flags (s : State) (b : Bool) (f : Flags) :
    (s.withFlags b f).flags = if b then f else s.flags := by
  cases b <;> rfl
@[simp] theorem State.withFlags_reg (s : State) (b : Bool) (f : Flags) (r : Reg) : (s.withFlags b f).reg r = s.reg r := by
  cases b <;> simp [State.withFlags]

/-! ## `writeBack` -/

@[simp] theorem State.writeBack_none (s : State) : s.writeBack none = s := rfl
@[simp] theorem State.writeBack_some (s : State) (r : Reg) (v : Word) : s.writeBack (some (r, v)) = s.setReg r v := rfl
@[simp] theorem State.writeBack_pc (s : State) (wb : Option (Reg × Word)) : (s.writeBack wb).pc = s.pc := by
  rcases wb with _ | ⟨r, v⟩ <;> simp
@[simp] theorem State.writeBack_flags (s : State) (wb : Option (Reg × Word)) : (s.writeBack wb).flags = s.flags := by
  rcases wb with _ | ⟨r, v⟩ <;> simp
@[simp] theorem State.writeBack_primask (s : State) (wb : Option (Reg × Word)) :
    (s.writeBack wb).primask = s.primask := by
  rcases wb with _ | ⟨r, v⟩ <;> simp
@[simp] theorem State.writeBack_faultmask (s : State) (wb : Option (Reg × Word)) :
    (s.writeBack wb).faultmask = s.faultmask := by
  rcases wb with _ | ⟨r, v⟩ <;> simp
@[simp] theorem State.writeBack_basepri (s : State) (wb : Option (Reg × Word)) :
    (s.writeBack wb).basepri = s.basepri := by
  rcases wb with _ | ⟨r, v⟩ <;> simp
@[simp] theorem State.writeBack_control (s : State) (wb : Option (Reg × Word)) :
    (s.writeBack wb).control = s.control := by
  rcases wb with _ | ⟨r, v⟩ <;> simp
@[simp] theorem State.writeBack_unalignTrp (s : State) (wb : Option (Reg × Word)) :
    (s.writeBack wb).unalignTrp = s.unalignTrp := by
  rcases wb with _ | ⟨r, v⟩ <;> simp
@[simp] theorem State.writeBack_itstate (s : State) (wb : Option (Reg × Word)) :
    (s.writeBack wb).itstate = s.itstate := by
  rcases wb with _ | ⟨r, v⟩ <;> simp
@[simp] theorem State.writeBack_mem (s : State) (wb : Option (Reg × Word)) : (s.writeBack wb).mem = s.mem := by
  rcases wb with _ | ⟨r, v⟩ <;> simp
@[simp] theorem State.writeBack_cfg (s : State) (wb : Option (Reg × Word)) : (s.writeBack wb).cfg = s.cfg := by
  rcases wb with _ | ⟨r, v⟩ <;> simp

/-! ## `setRegs` -/

@[simp] theorem State.setRegs_nil (s : State) : s.setRegs [] = s := rfl
@[simp] theorem State.setRegs_cons (s : State) (r : Reg) (v : Word) (l : List (Reg × Word)) :
    s.setRegs ((r, v) :: l) = (s.setReg r v).setRegs l := rfl
@[simp] theorem State.setRegs_pc (s : State) (l : List (Reg × Word)) : (s.setRegs l).pc = s.pc := by
  induction l generalizing s with
  | nil => rfl
  | cons p l ih => obtain ⟨r, v⟩ := p; simp [ih]
@[simp] theorem State.setRegs_flags (s : State) (l : List (Reg × Word)) : (s.setRegs l).flags = s.flags := by
  induction l generalizing s with
  | nil => rfl
  | cons p l ih => obtain ⟨r, v⟩ := p; simp [ih]
@[simp] theorem State.setRegs_primask (s : State) (l : List (Reg × Word)) : (s.setRegs l).primask = s.primask := by
  induction l generalizing s with
  | nil => rfl
  | cons p l ih => obtain ⟨r, v⟩ := p; simp [ih]
@[simp] theorem State.setRegs_faultmask (s : State) (l : List (Reg × Word)) :
    (s.setRegs l).faultmask = s.faultmask := by
  induction l generalizing s with
  | nil => rfl
  | cons p l ih => obtain ⟨r, v⟩ := p; simp [ih]
@[simp] theorem State.setRegs_basepri (s : State) (l : List (Reg × Word)) : (s.setRegs l).basepri = s.basepri := by
  induction l generalizing s with
  | nil => rfl
  | cons p l ih => obtain ⟨r, v⟩ := p; simp [ih]
@[simp] theorem State.setRegs_control (s : State) (l : List (Reg × Word)) : (s.setRegs l).control = s.control := by
  induction l generalizing s with
  | nil => rfl
  | cons p l ih => obtain ⟨r, v⟩ := p; simp [ih]
@[simp] theorem State.setRegs_unalignTrp (s : State) (l : List (Reg × Word)) :
    (s.setRegs l).unalignTrp = s.unalignTrp := by
  induction l generalizing s with
  | nil => rfl
  | cons p l ih => obtain ⟨r, v⟩ := p; simp [ih]
@[simp] theorem State.setRegs_itstate (s : State) (l : List (Reg × Word)) : (s.setRegs l).itstate = s.itstate := by
  induction l generalizing s with
  | nil => rfl
  | cons p l ih => obtain ⟨r, v⟩ := p; simp [ih]
@[simp] theorem State.setRegs_mem (s : State) (l : List (Reg × Word)) : (s.setRegs l).mem = s.mem := by
  induction l generalizing s with
  | nil => rfl
  | cons p l ih => obtain ⟨r, v⟩ := p; simp [ih]
@[simp] theorem State.setRegs_cfg (s : State) (l : List (Reg × Word)) : (s.setRegs l).cfg = s.cfg := by
  induction l generalizing s with
  | nil => rfl
  | cons p l ih => obtain ⟨r, v⟩ := p; simp [ih]

/-! ## `writeSpecial`: what each write leaves -/

@[simp] theorem writeSpecial_gprs (r : SysReg) (v : Word) (s : State) : (writeSpecial r v s).gprs = s.gprs := by
  unfold writeSpecial; split
  · rfl
  · cases r <;> rfl
@[simp] theorem writeSpecial_lr (r : SysReg) (v : Word) (s : State) : (writeSpecial r v s).lr = s.lr := by
  unfold writeSpecial; split
  · rfl
  · cases r <;> rfl
@[simp] theorem writeSpecial_pc (r : SysReg) (v : Word) (s : State) : (writeSpecial r v s).pc = s.pc := by
  unfold writeSpecial; split
  · rfl
  · cases r <;> rfl
@[simp] theorem writeSpecial_flags (r : SysReg) (v : Word) (s : State) : (writeSpecial r v s).flags = s.flags := by
  unfold writeSpecial; split
  · rfl
  · cases r <;> rfl
@[simp] theorem writeSpecial_unalignTrp (r : SysReg) (v : Word) (s : State) :
    (writeSpecial r v s).unalignTrp = s.unalignTrp := by
  unfold writeSpecial; split
  · rfl
  · cases r <;> rfl
@[simp] theorem writeSpecial_itstate (r : SysReg) (v : Word) (s : State) :
    (writeSpecial r v s).itstate = s.itstate := by
  unfold writeSpecial; split
  · rfl
  · cases r <;> rfl
@[simp] theorem writeSpecial_mem (r : SysReg) (v : Word) (s : State) : (writeSpecial r v s).mem = s.mem := by
  unfold writeSpecial; split
  · rfl
  · cases r <;> rfl
@[simp] theorem writeSpecial_cfg (r : SysReg) (v : Word) (s : State) : (writeSpecial r v s).cfg = s.cfg := by
  unfold writeSpecial; split
  · rfl
  · cases r <;> rfl

/-- A write of a special register leaves the others. -/
theorem writeSpecial_others (r : SysReg) (v : Word) (s : State) :
    (r ≠ .primask → (writeSpecial r v s).primask = s.primask) ∧
    (r ≠ .faultmask → (writeSpecial r v s).faultmask = s.faultmask) ∧
    (r ≠ .basepri → (writeSpecial r v s).basepri = s.basepri) ∧
    (r ≠ .control → (writeSpecial r v s).control = s.control) ∧
    (r ≠ .msp → (writeSpecial r v s).msp = s.msp) ∧ (r ≠ .psp → (writeSpecial r v s).psp = s.psp) := by
  unfold writeSpecial; split
  · simp
  · cases r <;> simp

/-- An unprivileged write is ignored (40_special_register_access R146). -/
theorem writeSpecial_unprivileged (r : SysReg) (v : Word) (s : State) (h : s.privileged = false) :
    writeSpecial r v s = s := by simp [writeSpecial, h]

/-! ## `advanced` -/

@[simp] theorem State.advanced_pc (s : State) (n : Nat) : (s.advanced n).pc = s.pc + BitVec.ofNat 32 n := rfl
@[simp] theorem State.advanced_itstate (s : State) (n : Nat) : (s.advanced n).itstate = s.itstate.tail := rfl
@[simp] theorem State.advanced_mem (s : State) (n : Nat) : (s.advanced n).mem = s.mem := rfl
@[simp] theorem State.advanced_flags (s : State) (n : Nat) : (s.advanced n).flags = s.flags := rfl
@[simp] theorem State.advanced_cfg (s : State) (n : Nat) : (s.advanced n).cfg = s.cfg := rfl
theorem State.advanced_reg (s : State) (n : Nat) {r : Reg} (hr : r ≠ .pc) : (s.advanced n).reg r = s.reg r :=
  State.reg_withPc s _ _ hr

/-! ## Frames compose -/

theorem Frame.refl (s : State) (rs : List Reg) : Frame rs s s :=
  ⟨fun _ _ _ => rfl, fun _ => rfl, fun _ => rfl, rfl, rfl, rfl, rfl, rfl, rfl⟩

/-- A register write is inside the frame of its register. -/
theorem Frame.setReg {rs : List Reg} {s t : State} (h : Frame rs s t) {r : Reg} (hr : r ∈ rs) (v : Word) :
    Frame rs s (t.setReg r v) := by
  have hu : t.usesPsp = s.usesPsp := by simp [State.usesPsp, h.control]
  refine ⟨fun q hq hn => ?_, fun hm => ?_, fun hp => ?_, ?_, ?_, ?_, ?_, ?_, ?_⟩
  · have hqr : q ≠ r := fun e => hn (by rw [e]; exact hr)
    rw [State.reg_setReg_ne _ _ _ _ hqr, h.regs q hq hn]
  · rw [State.setReg_msp, h.msp hm]
    rcases hm with hm | hm
    · exact .inl (fun e => hm (by rw [← e]; exact hr))
    · exact .inr (hu.trans hm)
  · rw [State.setReg_psp, h.psp hp]
    rcases hp with hp | hp
    · exact .inl (fun e => hp (by rw [← e]; exact hr))
    · exact .inr (hu.trans hp)
  all_goals simp [h.primask, h.faultmask, h.basepri, h.control, h.unalignTrp, h.cfg]

/-- A frame says nothing of the PC, the IT state, the flags and memory. -/
theorem Frame.of_fields {rs : List Reg} {s t u : State} (h : Frame rs s t) (hg : u.gprs = t.gprs) (hm : u.msp = t.msp)
    (hp : u.psp = t.psp) (hl : u.lr = t.lr) (h1 : u.primask = t.primask) (h2 : u.faultmask = t.faultmask)
    (h3 : u.basepri = t.basepri) (h4 : u.control = t.control) (h5 : u.unalignTrp = t.unalignTrp) (h6 : u.cfg = t.cfg) :
    Frame rs s u :=
  ⟨fun q hq hn => (State.reg_congr hg hm hp hl h4 hq).trans (h.regs q hq hn), fun x => hm.trans (h.msp x),
    fun x => hp.trans (h.psp x), h1.trans h.primask, h2.trans h.faultmask, h3.trans h.basepri, h4.trans h.control,
    h5.trans h.unalignTrp, h6.trans h.cfg⟩

end Sys2Proof.Machine
end

