-- ==== Sys2Proof/Laws/Memory.lean ====
section
/-! SUPPORT. Memory: what a read gives after a write, and that every operation keeps the canonical form. -/

namespace Sys2Proof.Machine

/-! ## One byte -/

/-- Below the first listed address everything reads as unlisted. -/
theorem Memory.read_below {m : Memory} {low a : Nat} (h : m.wfFrom low = true) (ha : a < low) :
    m.read a = Memory.unlisted := by
  induction m generalizing low with
  | nil => rfl
  | cons p m ih =>
    obtain ⟨k, b⟩ := p
    simp only [Memory.wfFrom, Bool.and_eq_true, decide_eq_true_eq] at h
    obtain ⟨⟨⟨h1, _⟩, _⟩, h4⟩ := h
    have hk : a ≠ k := by omega
    simp only [Memory.read, if_neg hk]
    exact ih h4 (by omega)

/-- The form of a list's tail. -/
theorem Memory.wfFrom_mono {m : Memory} {low low' : Nat} (h : m.wfFrom low = true) (hl : low' ≤ low) :
    m.wfFrom low' = true := by
  cases m with
  | nil => rfl
  | cons p m =>
    obtain ⟨k, b⟩ := p
    simp only [Memory.wfFrom, Bool.and_eq_true, decide_eq_true_eq] at h ⊢
    exact ⟨⟨⟨by omega, h.1.1.2⟩, h.1.2⟩, h.2⟩

/-- A write keeps the canonical form. -/
theorem Memory.write_wfFrom {m : Memory} {low a : Nat} {v : Byte} (h : m.wfFrom low = true) (hl : low ≤ a)
    (ha : a < addressCount) : (m.write a v).wfFrom low = true := by
  induction m generalizing low with
  | nil =>
    simp only [Memory.write]
    split
    · rfl
    · simp_all [Memory.wfFrom]
  | cons p m ih =>
    obtain ⟨k, b⟩ := p
    have h' := h
    simp only [Memory.wfFrom, Bool.and_eq_true, decide_eq_true_eq] at h
    obtain ⟨⟨⟨h1, h2⟩, h3⟩, h4⟩ := h
    simp only [Memory.write]
    split
    · rename_i hlt
      split
      · exact h'
      · rename_i hv
        simp only [Memory.wfFrom, Bool.and_eq_true, decide_eq_true_eq]
        exact ⟨⟨⟨hl, ha⟩, hv⟩, ⟨⟨by omega, h2⟩, h3⟩, h4⟩
    · split
      · split
        · exact Memory.wfFrom_mono h4 (by omega)
        · rename_i hv
          simp only [Memory.wfFrom, Bool.and_eq_true, decide_eq_true_eq]
          exact ⟨⟨⟨hl, ha⟩, hv⟩, by rename_i e; rw [e]; exact h4⟩
      · simp only [Memory.wfFrom, Bool.and_eq_true, decide_eq_true_eq]
        exact ⟨⟨⟨h1, h2⟩, h3⟩, ih h4 (by omega)⟩

/-- A write keeps the canonical form. -/
theorem Memory.write_wf {m : Memory} {a : Nat} {v : Byte} (h : m.wf = true) (ha : a < addressCount) :
    (m.write a v).wf = true := Memory.write_wfFrom h (Nat.zero_le _) ha

/-- Every address but the one written reads as before. -/
theorem Memory.read_write_ne (m : Memory) {a b : Nat} (v : Byte) (h : b ≠ a) : (m.write a v).read b = m.read b := by
  induction m with
  | nil =>
    simp only [Memory.write]
    split
    · rfl
    · simp [Memory.read, h]
  | cons p m ih =>
    obtain ⟨k, c⟩ := p
    simp only [Memory.write]
    split
    · split
      · rfl
      · simp [Memory.read, h]
    · split
      · rename_i e
        subst e
        split <;> simp [Memory.read, h]
      · simp only [Memory.read, ih]

/-- The address written reads the byte written, in a memory of canonical form. -/
theorem Memory.read_write_self {m : Memory} {low : Nat} (a : Nat) (v : Byte) (h : m.wfFrom low = true) :
    (m.write a v).read a = v := by
  induction m generalizing low with
  | nil =>
    simp only [Memory.write]
    split
    · rename_i e; simp [Memory.read, e]
    · simp [Memory.read]
  | cons p m ih =>
    obtain ⟨k, c⟩ := p
    simp only [Memory.wfFrom, Bool.and_eq_true, decide_eq_true_eq] at h
    obtain ⟨⟨⟨h1, h2⟩, h3⟩, h4⟩ := h
    simp only [Memory.write]
    split
    · split
      · rename_i hlt e
        have hk : a ≠ k := by omega
        simp only [Memory.read, if_neg hk, e]
        exact Memory.read_below h4 (by omega)
      · simp [Memory.read]
    · split
      · rename_i e
        split
        · rename_i ev
          rw [ev]; exact Memory.read_below h4 (by omega)
        · simp [Memory.read]
      · rename_i hne
        simp only [Memory.read, if_neg hne]
        exact ih h4

/-! ## Several bytes -/

/-- Writing bytes keeps the canonical form while they lie in the address space. -/
theorem Memory.writeBytes_wf {m : Memory} {a : Nat} {bs : List Byte} (h : m.wf = true)
    (ha : a + bs.length ≤ addressCount) : (m.writeBytes a bs).wf = true := by
  induction bs generalizing m a with
  | nil => exact h
  | cons b bs ih =>
    simp only [List.length_cons] at ha
    exact ih (Memory.write_wf h (by omega)) (by omega)

/-- Bytes outside those written read as before. -/
theorem Memory.read_writeBytes_of_outside (m : Memory) {a b : Nat} (bs : List Byte) (h : b < a ∨ a + bs.length ≤ b) :
    (m.writeBytes a bs).read b = m.read b := by
  induction bs generalizing m a with
  | nil => rfl
  | cons c bs ih =>
    simp only [List.length_cons] at h
    rw [Memory.writeBytes, ih _ (by omega), Memory.read_write_ne _ _ (by omega)]

/-- The bytes written read back, in a memory of canonical form. -/
theorem Memory.read_writeBytes_of_inside {m : Memory} {a : Nat} {bs : List Byte} (h : m.wf = true)
    (ha : a + bs.length ≤ addressCount) {k : Nat} (hk : k < bs.length) : (m.writeBytes a bs).read (a + k) = bs[k] := by
  induction bs generalizing m a k with
  | nil => simp at hk
  | cons c bs ih =>
    simp only [List.length_cons] at ha hk
    cases k with
    | zero =>
      rw [Memory.writeBytes, Memory.read_writeBytes_of_outside _ _ (by omega)]
      exact Memory.read_write_self _ _ h
    | succ j =>
      have := ih (m := m.write a c) (a := a + 1) (Memory.write_wf h (by omega)) (by omega) (k := j) (by omega)
      rw [Memory.writeBytes, show a + (j + 1) = a + 1 + j by omega, this]
      rfl

/-- The bytes written are the bytes read. -/
theorem Memory.readBytes_writeBytes {m : Memory} {a : Nat} {bs : List Byte} (h : m.wf = true)
    (ha : a + bs.length ≤ addressCount) : (m.writeBytes a bs).readBytes a bs.length = bs := by
  have key : ∀ (n : Nat) (m : Memory) (a : Nat), n = (m.readBytes a n).length ∧
      ∀ k (hk : k < (m.readBytes a n).length), (m.readBytes a n)[k] = m.read (a + k) := by
    intro n
    induction n with
    | zero => intro m a; simp [Memory.readBytes]
    | succ n ih =>
      intro m a
      refine ⟨by simp [Memory.readBytes, ← (ih m (a + 1)).1], fun k hk => ?_⟩
      cases k with
      | zero => rfl
      | succ j =>
        have := (ih m (a + 1)).2 j (by simpa [Memory.readBytes] using hk)
        simpa [Memory.readBytes, Nat.add_assoc, Nat.add_comm 1] using this
  apply List.ext_getElem
  · exact (key _ _ _).1.symm
  · intro k h1 h2
    rw [(key _ _ _).2 k h1, Memory.read_writeBytes_of_inside h ha h2]

/-! ## Little-endian values -/

theorem leBytes_length (n v : Nat) : (leBytes n v).length = n := by
  induction n generalizing v with
  | zero => rfl
  | succ n ih => simp [leBytes, ih]

/-- The bytes stored are the fields of the value (20_memory R70: `mem[a+i] <- v[8*i+7 : 8*i]`). -/
theorem leBytes_getElem (n : Nat) (v : Nat) {k : Nat} (hk : k < (leBytes n v).length) :
    (leBytes n v)[k] = BitVec.ofNat 8 (v / 2 ^ (8 * k)) := by
  induction n generalizing v k with
  | zero => simp [leBytes] at hk
  | succ n ih =>
    cases k with
    | zero => simp [leBytes]
    | succ j =>
      have := ih (v / 256) (k := j) (by simpa [leBytes] using hk)
      simp only [leBytes, List.getElem_cons_succ, this, Nat.div_div_eq_div_mul]
      congr 2
      rw [show 8 * (j + 1) = 8 * j + 8 by ring, pow_add]
      ring

/-- A store keeps the canonical form while it lies in the address space. -/
theorem Memory.writeLe_wf {m : Memory} {a n : Nat} {v : Word} (h : m.wf = true) (ha : a + n ≤ addressCount) :
    (m.writeLe a n v).wf = true := Memory.writeBytes_wf h (by rw [leBytes_length]; exact ha)

/-- A store changes no byte outside its own. -/
theorem Memory.read_writeLe_of_outside (m : Memory) {a n b : Nat} (v : Word) (h : b < a ∨ a + n ≤ b) :
    (m.writeLe a n v).read b = m.read b :=
  Memory.read_writeBytes_of_outside _ _ (by rw [leBytes_length]; exact h)

/-- A store leaves the bytes of its value, in a memory of canonical form. -/
theorem Memory.read_writeLe_of_inside {m : Memory} {a n k : Nat} (v : Word) (h : m.wf = true)
    (ha : a + n ≤ addressCount) (hk : k < n) : (m.writeLe a n v).read (a + k) = v.extractLsb' (8 * k) 8 := by
  rw [Memory.writeLe, Memory.read_writeBytes_of_inside h (by rw [leBytes_length]; exact ha)
    (by rw [leBytes_length]; exact hk), leBytes_getElem]
  apply BitVec.eq_of_toNat_eq
  simp [Nat.shiftRight_eq_div_pow]

/-- The number four bytes make, the first the most significant. -/
theorem append_four_toNat (a b c d : Byte) :
    ((a ++ b ++ c ++ d : BitVec (8 + 8 + 8 + 8))).toNat =
      a.toNat * 16777216 + b.toNat * 65536 + c.toNat * 256 + d.toNat := by
  have hb := b.isLt
  have hc := c.isLt
  have hd := d.isLt
  rw [BitVec.toNat_append, ← Nat.shiftLeft_add_eq_or_of_lt hd, BitVec.toNat_append,
    ← Nat.shiftLeft_add_eq_or_of_lt hc, BitVec.toNat_append, ← Nat.shiftLeft_add_eq_or_of_lt hb]
  simp only [Nat.shiftLeft_eq]
  omega

/-- The value of the word at an address. -/
theorem wordAt_toNat (m : Memory) (a : Nat) :
    (wordAt m a).toNat = (m.read (a + 3)).toNat * 16777216 + (m.read (a + 2)).toNat * 65536 +
      (m.read (a + 1)).toNat * 256 + (m.read a).toNat := append_four_toNat _ _ _ _

/-- A word is read as `mem[a+3] : mem[a+2] : mem[a+1] : mem[a]` (20_memory R68, R70). -/
theorem Memory.readLe_four (m : Memory) (a : Nat) : m.readLe a 4 = wordAt m a := by
  apply BitVec.eq_of_toNat_eq
  have h0 := (m.read a).isLt
  have h1 := (m.read (a + 1)).isLt
  have h2 := (m.read (a + 2)).isLt
  have h3 := (m.read (a + 3)).isLt
  rw [wordAt_toNat]
  simp only [Memory.readLe, Memory.readBytes, leNat, BitVec.toNat_ofNat, Nat.add_assoc, Nat.reduceAdd]
  omega

/-- A halfword is read as `mem[a+1] : mem[a]`, zero-extended (20_memory R68, R70). -/
theorem Memory.readLe_two (m : Memory) (a : Nat) : m.readLe a 2 = (halfAt m a).setWidth 32 := by
  apply BitVec.eq_of_toNat_eq
  have h0 := (m.read a).isLt
  have h1 := (m.read (a + 1)).isLt
  simp only [Memory.readLe, Memory.readBytes, leNat, halfAt, BitVec.toNat_append, BitVec.toNat_ofNat,
    BitVec.toNat_setWidth]
  rw [← Nat.shiftLeft_add_eq_or_of_lt h0]
  simp only [Nat.shiftLeft_eq]
  omega

/-- Memory at reset is in canonical form. -/
theorem reset_mem_wf : State.reset.mem.wf = true := rfl

end Sys2Proof.Machine
end

