-- ==== Sys2Proof/Laws/Program.lean ====
section
/-! SUPPORT. Where the instructions of the program start, and what the check of a branch target decides. -/

namespace Sys2Proof.Machine

/-- After an instruction that starts at `k` the next one starts. -/
theorem instrStart_instrAfter {m : Memory} {c : Config} {k : Nat} (h : instrStart m c k = true) :
    instrStart m c (instrAfter m c k) = true := by
  unfold instrAfter
  split
  · rename_i hw; simp [instrStart, h, hw]
  · rename_i hw; simp [instrStart, hw]

/-- The second halfword of a 32-bit instruction is no start of an instruction. -/
theorem instrStart_second {m : Memory} {c : Config} {k : Nat} (h : instrStart m c k = true) (hw : beginsWide m c k = true) :
    instrStart m c (k + 1) = false := by
  simp [instrStart, h, hw]

/-- After a halfword that begins no 32-bit instruction an instruction starts. -/
theorem instrStart_succ {m : Memory} {c : Config} {k : Nat} (hw : beginsWide m c k = false) :
    instrStart m c (k + 1) = true := by
  simp [instrStart, hw]

/-- The starts of consecutive instructions are the steps of `instrAfter`. -/
theorem mem_instrStarts {m : Memory} {c : Config} {n k t : Nat} :
    t ∈ instrStarts m c n k ↔ ∃ j, j < n ∧ t = (instrAfter m c)^[j] k := by
  induction n generalizing k with
  | zero => simp [instrStarts]
  | succ n ih =>
    rw [instrStarts, List.mem_cons, ih]
    constructor
    · rintro (rfl | ⟨j, hj, rfl⟩)
      · exact ⟨0, by omega, rfl⟩
      · exact ⟨j + 1, by omega, rfl⟩
    · rintro ⟨_ | j, hj, rfl⟩
      · exact .inl rfl
      · exact .inr ⟨j, by omega, rfl⟩

/-- `j` instructions take `j` to `2 * j` halfwords. -/
theorem instrAfter_iterate (m : Memory) (c : Config) (j k : Nat) :
    k + j ≤ (instrAfter m c)^[j] k ∧ (instrAfter m c)^[j] k ≤ k + 2 * j := by
  induction j generalizing k with
  | zero => simp
  | succ j ih =>
    have h := ih (instrAfter m c k)
    have : k + 1 ≤ instrAfter m c k ∧ instrAfter m c k ≤ k + 2 := by unfold instrAfter; split <;> omega
    rw [Function.iterate_succ_apply]
    omega

/-- An IT block has at most four instructions. -/
theorem itBlock_length (firstcond : Cond) (mask : BitVec 4) : (itBlock firstcond mask).length ≤ 4 := by
  have h : ∀ (f : Bool) (bs : List Bool), (itRest firstcond f bs).length ≤ bs.length - 1 := by
    intro f bs
    induction bs with
    | nil => simp [itRest]
    | cons b bs ih =>
      rw [itRest]
      split
      · rename_i h
        cases bs with
        | nil => simp at h
        | cons _ _ => simpa using ih
      · simp
  exact Nat.succ_le_succ (h _ [mask.getLsbD 3, mask.getLsbD 2, mask.getLsbD 1, mask.getLsbD 0])

/-- A halfword opens a block of more than `j` instructions where it is an IT that does. -/
theorem lt_itLength {m : Memory} {c : Config} {k j : Nat} :
    j < itLength m c k ↔ ∃ (firstcond : Cond) (mask : BitVec 4), c.admits .fetch (2 * k) 2 = true ∧
      decode (m.readBytes (2 * k) 2) = .ok (.it firstcond mask, []) ∧ j < (itBlock firstcond mask).length := by
  unfold itLength inProgram
  constructor
  · intro h
    split at h
    · split at h
      · exact ⟨_, _, by assumption, by assumption, h⟩
      · omega
    · omega
  · rintro ⟨f, mask, ha, hd, hj⟩
    rw [if_pos ha, hd]
    exact hj

/-- The check of a branch target decides whether it is in an IT block. -/
theorem inItBlock_iff {m : Memory} {c : Config} {a : Word} : inItBlock m c a = true ↔ InItBlock m c a := by
  have hd : ∀ {d k t : Nat}, (k + d = t) → (d ≤ t ∧ t - d = k) := by omega
  simp only [inItBlock, Bool.and_eq_true, decide_eq_true_eq, List.any_eq_true, mem_instrStarts, lt_itLength]
  constructor
  · rintro ⟨he, d, _, ⟨_, j, ⟨f, mask, ha, hdec, hj⟩, ht⟩, hs⟩
    exact ⟨_, f, mask, j, hs, ha, hdec, hj, by omega⟩
  · rintro ⟨k, f, mask, j, hs, ha, hdec, hj, ht⟩
    have h1 := instrAfter_iterate m c j (k + 1)
    have h2 := itBlock_length f mask
    obtain ⟨h3, h4⟩ := hd (d := a.toNat / 2 - k) (k := k) (t := a.toNat / 2) (by omega)
    refine ⟨by omega, a.toNat / 2 - k, ?_, ⟨h3, j, ?_, ?_⟩, ?_⟩
    · have : 1 ≤ a.toNat / 2 - k ∧ a.toNat / 2 - k ≤ 7 := by omega
      simp only [List.mem_cons, List.not_mem_nil, or_false]
      omega
    · rw [h4]; exact ⟨f, mask, ha, hdec, hj⟩
    · rw [h4]; omega
    · rw [h4]; exact hs

end Sys2Proof.Machine
end

