-- ==== Sys2Proof/Laws/Ops.lean ====
section
/-! SUPPORT. One lemma per shared operation that says all it can do, and when it goes through. -/

namespace Sys2Proof.Machine

/-! ## Sequencing -/

section
variable {α β : Type}

@[simp] theorem andThen_next (a : α) (f : α → Attempt β) : andThen (.next a) f = f a := rfl
@[simp] theorem andThen_fault (r : Fault) (f : α → Attempt β) : andThen (.fault r) f = .fault r := rfl
@[simp] theorem andThen_refused (r : Refusal) (f : α → Attempt β) : andThen (.refused r) f = .refused r := rfl

/-- A sequence goes through when both parts do. -/
theorem andThen_eq_next {x : Attempt α} {f : α → Attempt β} {b : β} :
    andThen x f = .next b ↔ ∃ a, x = .next a ∧ f a = .next b := by
  cases x <;> simp

/-- A sequence faults in one of its parts. -/
theorem andThen_eq_fault {x : Attempt α} {f : α → Attempt β} {r : Fault} :
    andThen x f = .fault r ↔ x = .fault r ∨ ∃ a, x = .next a ∧ f a = .fault r := by
  cases x <;> simp

/-- A sequence is refused in one of its parts. -/
theorem andThen_eq_refused {x : Attempt α} {f : α → Attempt β} {r : Refusal} :
    andThen x f = .refused r ↔ x = .refused r ∨ ∃ a, x = .next a ∧ f a = .refused r := by
  cases x <;> simp

end

/-! ## The PC and the IT state -/

/-- An instruction completes by advancing, where there is room. -/
theorem retire_eq_next {i : Instr} {s t : State} :
    retire i s = .next t ↔ s.pc.toNat + width i < addressCount ∧ t = s.advanced (width i) := by
  unfold retire
  split
  · rename_i h; simp only [h, true_and]
    exact ⟨fun e => by injection e with e; exact e.symm, fun e => by rw [e]; rfl⟩
  · rename_i h; simp [h]

/-- Completing raises no fault. -/
theorem retire_ne_fault (i : Instr) (s : State) (r : Fault) : retire i s ≠ .fault r := by
  unfold retire; split <;> simp

/-- Completing is refused only at the top of the address space. -/
theorem retire_eq_refused {i : Instr} {s : State} {r : Refusal} (h : retire i s = .refused r) : r = .addressTop := by
  unfold retire at h; split at h
  · simp at h
  · injection h with h; exact h.symm

/-- A branch goes through unless it goes into an IT block. -/
theorem branchTo_eq_next {target : Word} {s t : State} :
    branchTo target s = .next t ↔
      ¬InItBlock s.mem s.cfg target ∧ t = { s with pc := target, itstate := s.itstate.tail } := by
  rw [← inItBlock_iff]
  unfold branchTo
  split
  · rename_i h; simp [h]
  · rename_i h
    exact ⟨fun e => by injection e with e; exact ⟨h, e.symm⟩, fun e => by rw [e.2]⟩

/-- A branch into an IT block is refused, and a branch is refused for nothing else. -/
theorem branchTo_eq_refused {target : Word} {s : State} {r : Refusal} :
    branchTo target s = .refused r ↔ InItBlock s.mem s.cfg target ∧ r = .branchIntoBlock target := by
  rw [← inItBlock_iff]
  unfold branchTo
  split
  · rename_i h; simp only [h, true_and]
    exact ⟨fun e => by injection e with e; exact e.symm, fun e => by rw [e]⟩
  · rename_i h; simp [h]

/-- A branch raises no fault. -/
theorem branchTo_ne_fault (target : Word) (s : State) (r : Fault) : branchTo target s ≠ .fault r := by
  unfold branchTo; split <;> simp

/-- A write of the PC from a register or memory branches when bit[0] is 1 and the target is in no IT block. -/
theorem loadWritePc_eq_next {v : Word} {s s' t : State} :
    loadWritePc v s s' = .next t ↔
      v.getLsbD 0 = true ∧ ¬InItBlock s'.mem s'.cfg (v &&& 0xFFFFFFFE#32) ∧
        t = { s' with pc := v &&& 0xFFFFFFFE#32, itstate := s'.itstate.tail } := by
  unfold loadWritePc
  split
  · rename_i h; simp only [h, true_and, branchTo_eq_next]
  · rename_i h; exact ⟨fun e => by simp [raiseUsageFault] at e, fun e => absurd e.1 h⟩

/-- A write of the PC faults when bit[0] is 0. -/
theorem loadWritePc_eq_fault {v : Word} {s s' : State} {r : Fault} :
    loadWritePc v s s' = .fault r ↔ v.getLsbD 0 = false ∧ r = .usageFault .invstate s.pc := by
  unfold loadWritePc
  split
  · rename_i h; simp [h, branchTo_ne_fault]
  · rename_i h; simp only [raiseUsageFault, Bool.not_eq_true] at *
    simp only [h, true_and]
    exact ⟨fun e => by injection e with e; exact e.symm, fun e => by rw [e]⟩

/-- A write of the PC is refused only where its target is in an IT block. -/
theorem loadWritePc_eq_refused {v : Word} {s s' : State} {r : Refusal} :
    loadWritePc v s s' = .refused r ↔
      v.getLsbD 0 = true ∧ InItBlock s'.mem s'.cfg (v &&& 0xFFFFFFFE#32) ∧ r = .branchIntoBlock (v &&& 0xFFFFFFFE#32) := by
  unfold loadWritePc
  split
  · rename_i h; simp only [h, true_and, branchTo_eq_refused]
  · rename_i h; exact ⟨fun e => by simp [raiseUsageFault] at e, fun e => absurd e.1 h⟩

/-! ## The frame of a conditional instruction -/

/-- A failed condition ends the instruction (44_branch_and_conditional R242). -/
theorem conditionalAs_failed {own : Cond} {p : Placement} {i : Instr} {s : State} {effect : Result}
    (h : conditionPassed own s = false) : conditionalAs own p i s effect = retire i s := by
  simp [conditionalAs, h]

/-- A passed condition, an admitted form and an admitted place give the instruction's own effect. -/
theorem conditionalAs_passed {own : Cond} {p : Placement} {i : Instr} {s : State} {effect : Result}
    (hc : conditionPassed own s = true) (hw : i.wellFormed = true) (hp : p.holds s = true) :
    conditionalAs own p i s effect = effect := by
  simp [conditionalAs, hc, hw, hp]

/-- A conditional instruction answers a next state in two ways. -/
theorem conditionalAs_eq_next {own : Cond} {p : Placement} {i : Instr} {s t : State} {effect : Result}
    (h : conditionalAs own p i s effect = .next t) :
    (conditionPassed own s = false ∧ retire i s = .next t) ∨
      (conditionPassed own s = true ∧ i.wellFormed = true ∧ p.holds s = true ∧ effect = .next t) := by
  unfold conditionalAs at h
  split at h
  · exact .inl ⟨by simp_all, h⟩
  · split at h
    · simp at h
    · split at h
      · simp at h
      · exact .inr ⟨by simp_all, by simp_all, by simp_all, h⟩

/-- A conditional instruction faults only in its own effect. -/
theorem conditionalAs_eq_fault {own : Cond} {p : Placement} {i : Instr} {s : State} {effect : Result} {r : Fault}
    (h : conditionalAs own p i s effect = .fault r) : conditionPassed own s = true ∧ effect = .fault r := by
  unfold conditionalAs at h
  split at h
  · exact absurd h (retire_ne_fault _ _ _)
  · split at h
    · simp at h
    · split at h
      · simp at h
      · exact ⟨by simp_all, h⟩

/-- An unconditional instruction answers a next state only by its own effect. -/
theorem unconditional_eq_next {i : Instr} {s t : State} {effect : Result} (h : unconditional i s effect = .next t) :
    i.wellFormed = true ∧ s.itstate = [] ∧ effect = .next t := by
  unfold unconditional at h
  split at h
  · simp at h
  · split at h
    · simp at h
    · exact ⟨by simp_all, by simp_all [Placement.holds], h⟩

theorem unconditional_passed {i : Instr} {s : State} {effect : Result} (hw : i.wellFormed = true) (hi : s.itstate = []) :
    unconditional i s effect = effect := by
  simp [unconditional, hw, hi, Placement.holds]

theorem unconditional_eq_fault {i : Instr} {s : State} {effect : Result} {r : Fault}
    (h : unconditional i s effect = .fault r) : effect = .fault r := by
  unfold unconditional at h
  split at h
  · simp at h
  · split at h
    · simp at h
    · exact h

/-! ## Accesses -/

/-- The alignment check passes on an aligned address, and for `UnalignedOK` where nothing traps it (20_memory R64). -/
theorem checkAlign_eq_next {ok : Bool} {cls : AccessClass} {a : Word} {s : State} {u : Unit} :
    checkAlign ok cls a s = .next u ↔
      aligned a cls = true ∨ (ok = true ∧ s.unalignTrp = false ∧ s.cfg.supportsUnaligned a.toNat = true) := by
  unfold checkAlign raiseUsageFault
  repeat' split
  all_goals simp_all

/-- The alignment check faults with the address, at the instruction (20_memory R64 to R66). -/
theorem checkAlign_eq_fault {ok : Bool} {cls : AccessClass} {a : Word} {s : State} {r : Fault} :
    checkAlign ok cls a s = .fault r ↔
      aligned a cls = false ∧ (ok = false ∨ s.unalignTrp = true ∨ s.cfg.supportsUnaligned a.toNat = false) ∧
        r = .usageFault (.unaligned a) s.pc := by
  rw [show (r = .usageFault (.unaligned a) s.pc) = (Fault.usageFault (.unaligned a) s.pc = r) from propext eq_comm]
  unfold checkAlign raiseUsageFault
  repeat' split
  all_goals simp_all

theorem checkAlign_ne_refused (ok : Bool) (cls : AccessClass) (a : Word) (s : State) (r : Refusal) :
    checkAlign ok cls a s ≠ .refused r := by
  unfold checkAlign raiseUsageFault
  repeat' split
  all_goals simp

/-- A read goes through inside the address space where the launch memory admits it. -/
theorem readAt_eq_next {a n : Nat} {s : State} {v : Word} :
    readAt a n s = .next v ↔ a + n ≤ addressCount ∧ s.cfg.admits .read a n = true ∧ v = s.mem.readLe a n := by
  rw [show (v = s.mem.readLe a n) = (s.mem.readLe a n = v) from propext eq_comm]
  unfold readAt
  repeat' split
  all_goals simp_all

/-- A read is stuck where the launch memory does not admit it. -/
theorem readAt_eq_fault {a n : Nat} {s : State} {r : Fault} :
    readAt a n s = .fault r ↔ a + n ≤ addressCount ∧ s.cfg.admits .read a n = false ∧ r = .stuck .read a := by
  rw [show (r = Fault.stuck .read a) = (Fault.stuck .read a = r) from propext eq_comm]
  unfold readAt
  repeat' split
  all_goals simp_all

/-- A store goes through inside the address space, outside the program text, where the launch memory admits it. -/
theorem writeAt_eq_next {a n : Nat} {v : Word} {s t : State} :
    writeAt a n v s = .next t ↔
      a + n ≤ addressCount ∧ s.cfg.touchesText a n = false ∧ s.cfg.admits .write a n = true ∧
        t = { s with mem := s.mem.writeLe a n v } := by
  rw [show (t = { s with mem := s.mem.writeLe a n v }) = ({ s with mem := s.mem.writeLe a n v } = t) from propext eq_comm]
  unfold writeAt
  repeat' split
  all_goals simp_all

/-- A store is stuck where the launch memory does not admit it. -/
theorem writeAt_eq_fault {a n : Nat} {v : Word} {s : State} {r : Fault} :
    writeAt a n v s = .fault r ↔
      a + n ≤ addressCount ∧ s.cfg.touchesText a n = false ∧ s.cfg.admits .write a n = false ∧ r = .stuck .write a := by
  rw [show (r = Fault.stuck .write a) = (Fault.stuck .write a = r) from propext eq_comm]
  unfold writeAt
  repeat' split
  all_goals simp_all

/-- The words read are the words at consecutive addresses. -/
theorem readWords_eq_next {k a : Nat} {s : State} {vs : List Word} (h : readWords k a s = .next vs) :
    vs.length = k ∧ ∀ j (hj : j < vs.length), vs[j] = wordAt s.mem (a + 4 * j) := by
  induction k generalizing a vs with
  | zero => simp only [readWords, Host.Outcome.next.injEq] at h; subst h; simp
  | succ k ih =>
    obtain ⟨v, hv, h⟩ := andThen_eq_next.1 h
    obtain ⟨ws, hw, h⟩ := andThen_eq_next.1 h
    injection h with h
    subst h
    obtain ⟨h1, h2⟩ := ih hw
    refine ⟨by simp [h1], fun j hj => ?_⟩
    cases j with
    | zero => simpa [Memory.readLe_four] using (readAt_eq_next.1 hv).2.2
    | succ j =>
      have := h2 j (by simpa using hj)
      simp only [List.getElem_cons_succ, this]
      congr 1
      omega

/-- Consecutive words can be read where each of them can. -/
theorem readWords_of_ok {k a : Nat} {s : State} (h : ∀ j, j < k → a + 4 * j + 4 ≤ addressCount)
    (ha : ∀ j, j < k → s.cfg.admits .read (a + 4 * j) 4 = true) : ∃ vs, readWords k a s = .next vs := by
  induction k generalizing a with
  | zero => exact ⟨[], rfl⟩
  | succ k ih =>
    obtain ⟨vs, hv⟩ := ih (a := a + 4) (fun j hj => by have := h (j + 1) (by omega); omega)
      (fun j hj => by have := ha (j + 1) (by omega); rwa [show a + 4 * (j + 1) = a + 4 + 4 * j by omega] at this)
    have h0 : readAt a 4 s = .next (s.mem.readLe a 4) :=
      readAt_eq_next.2 ⟨by have := h 0 (by omega); omega, by simpa using ha 0 (by omega), rfl⟩
    exact ⟨s.mem.readLe a 4 :: vs, by simp [readWords, h0, hv]⟩

/-! ## The common steps -/

/-- A logical, move or shift instruction answers a next state in two ways. -/
theorem logicalTo_eq_next {i : Instr} {sf : Bool} {rd : Reg} {r : Word} {carry : Bool} {s t : State}
    (h : logicalTo i sf rd r carry s = .next t) :
    t = s.advanced (width i) ∨
      t = ((s.setReg rd r).withFlags sf (s.flags.logical r carry)).advanced (width i) := by
  rcases conditionalAs_eq_next h with ⟨_, h⟩ | ⟨_, _, _, h⟩
  · exact .inl (retire_eq_next.1 h).2
  · exact .inr (retire_eq_next.1 h).2

/-- An addition or subtraction answers a next state in two ways. -/
theorem arithTo_eq_next {i : Instr} {sf : Bool} {rd : Reg} {a : ArithResult} {s t : State}
    (h : arithTo i sf rd a s = .next t) :
    t = s.advanced (width i) ∨ t = ((s.setReg rd a.value).withFlags sf (Flags.arith a)).advanced (width i) := by
  rcases conditionalAs_eq_next h with ⟨_, h⟩ | ⟨_, _, _, h⟩
  · exact .inl (retire_eq_next.1 h).2
  · exact .inr (retire_eq_next.1 h).2

/-- A test answers a next state in two ways. -/
theorem logicalTest_eq_next {i : Instr} {r : Word} {carry : Bool} {s t : State} (h : logicalTest i r carry s = .next t) :
    t = s.advanced (width i) ∨ t = (s.withFlags true (s.flags.logical r carry)).advanced (width i) := by
  rcases conditionalAs_eq_next h with ⟨_, h⟩ | ⟨_, _, _, h⟩
  · exact .inl (retire_eq_next.1 h).2
  · exact .inr (retire_eq_next.1 h).2

/-- A comparison answers a next state in two ways. -/
theorem arithTest_eq_next {i : Instr} {a : ArithResult} {s t : State} (h : arithTest i a s = .next t) :
    t = s.advanced (width i) ∨ t = (s.withFlags true (Flags.arith a)).advanced (width i) := by
  rcases conditionalAs_eq_next h with ⟨_, h⟩ | ⟨_, _, _, h⟩
  · exact .inl (retire_eq_next.1 h).2
  · exact .inr (retire_eq_next.1 h).2

/-- A shift instruction answers a next state in two ways. -/
theorem shiftTo_eq_next {i : Instr} {sf : Bool} {rd rm : Reg} {op : ShiftOp} {n : Nat} {s t : State}
    (h : shiftTo i sf rd rm op n s = .next t) :
    t = s.advanced (width i) ∨
      t = ((s.setReg rd (shiftC (s.reg rm) op n s.flags.c).1).withFlags sf
        (s.flags.logical (shiftC (s.reg rm) op n s.flags.c).1 (shiftC (s.reg rm) op n s.flags.c).2)).advanced (width i) :=
  logicalTo_eq_next h

/-- A load of a word answers a next state in three ways. -/
theorem loadWord_eq_next {i : Instr} {rt : Reg} {form : AddrForm} {s t : State} (h : loadWord i rt form s = .next t) :
    t = s.advanced (width i) ∨
      (rt = .pc ∧ (wordAt s.mem (form.address s).toNat).getLsbD 0 = true ∧
        ¬InItBlock s.mem s.cfg (wordAt s.mem (form.address s).toNat &&& 0xFFFFFFFE#32) ∧
        t = { s.writeBack (form.writeback s) with
          pc := wordAt s.mem (form.address s).toNat &&& 0xFFFFFFFE#32, itstate := s.itstate.tail }) ∨
      (rt ≠ .pc ∧
        t = ((s.writeBack (form.writeback s)).setReg rt (wordAt s.mem (form.address s).toNat)).advanced (width i)) := by
  rcases conditionalAs_eq_next h with ⟨_, h⟩ | ⟨_, _, _, h⟩
  · exact .inl (retire_eq_next.1 h).2
  · obtain ⟨_, _, h⟩ := andThen_eq_next.1 h
    split at h
    · simp at h
    · obtain ⟨v, hv, h⟩ := andThen_eq_next.1 h
      obtain ⟨_, _, rfl⟩ := readAt_eq_next.1 hv
      rw [Memory.readLe_four] at h
      split at h
      · rename_i hpc
        obtain ⟨hb, hi, e⟩ := loadWritePc_eq_next.1 h
        exact .inr (.inl ⟨hpc, hb, by simpa using hi, by simpa using e⟩)
      · rename_i hpc
        exact .inr (.inr ⟨hpc, (retire_eq_next.1 h).2⟩)

/-- A load of a halfword answers a next state in two ways. -/
theorem loadHalf_eq_next {i : Instr} {rt : Reg} {form : AddrForm} {ext : Extend} {s t : State}
    (h : loadHalf i rt form ext s = .next t) :
    t = s.advanced (width i) ∨
      t = ((s.writeBack (form.writeback s)).setReg rt
        (extendHalf ext ((halfAt s.mem (form.address s).toNat).setWidth 32))).advanced (width i) := by
  rcases conditionalAs_eq_next h with ⟨_, h⟩ | ⟨_, _, _, h⟩
  · exact .inl (retire_eq_next.1 h).2
  · obtain ⟨v, hv, h⟩ := andThen_eq_next.1 h
    obtain ⟨_, _, hv⟩ := andThen_eq_next.1 hv
    obtain ⟨_, _, rfl⟩ := readAt_eq_next.1 hv
    rw [Memory.readLe_two] at h
    exact .inr (retire_eq_next.1 h).2

/-- A store answers a next state in two ways. -/
theorem store_eq_next {i : Instr} {rt : Reg} {form : AddrForm} {cls : AccessClass} {n : Nat} {s t : State}
    (h : store i rt form cls n s = .next t) :
    t = s.advanced (width i) ∨
      ((form.address s).toNat + n ≤ addressCount ∧
        t = (State.writeBack { s with mem := s.mem.writeLe (form.address s).toNat n (s.reg rt) }
          (form.writeback s)).advanced (width i)) := by
  rcases conditionalAs_eq_next h with ⟨_, h⟩ | ⟨_, _, _, h⟩
  · exact .inl (retire_eq_next.1 h).2
  · obtain ⟨s', hs, h⟩ := andThen_eq_next.1 h
    obtain ⟨_, _, hs⟩ := andThen_eq_next.1 hs
    obtain ⟨ha, _, _, rfl⟩ := writeAt_eq_next.1 hs
    exact .inr ⟨ha, (retire_eq_next.1 h).2⟩

/-- A multiple load answers a next state in three ways. -/
theorem loadMultiple_eq_next {i : Instr} {regs : List Reg} {toPc : Bool} {start : Word} {wb : Option (Reg × Word)}
    {s t : State} (h : loadMultiple i regs toPc start wb s = .next t) :
    t = s.advanced (width i) ∨
      ∃ vs : List Word, vs.length = regs.length ∧
        (∀ j (hj : j < vs.length), vs[j] = wordAt s.mem (start.toNat + 4 * j)) ∧
        ((toPc = true ∧ (wordAt s.mem (start.toNat + 4 * regs.length)).getLsbD 0 = true ∧
            ¬InItBlock s.mem s.cfg (wordAt s.mem (start.toNat + 4 * regs.length) &&& 0xFFFFFFFE#32) ∧
            t = { (s.setRegs (regs.zip vs)).writeBack wb with
              pc := wordAt s.mem (start.toNat + 4 * regs.length) &&& 0xFFFFFFFE#32, itstate := s.itstate.tail }) ∨
          (toPc = false ∧ t = ((s.setRegs (regs.zip vs)).writeBack wb).advanced (width i))) := by
  rcases conditionalAs_eq_next h with ⟨_, h⟩ | ⟨_, _, _, h⟩
  · exact .inl (retire_eq_next.1 h).2
  · obtain ⟨_, _, h⟩ := andThen_eq_next.1 h
    obtain ⟨vs, hvs, h⟩ := andThen_eq_next.1 h
    obtain ⟨h1, h2⟩ := readWords_eq_next hvs
    refine .inr ⟨vs, h1, h2, ?_⟩
    split at h
    · rename_i hp
      obtain ⟨v, hv, h⟩ := andThen_eq_next.1 h
      obtain ⟨_, _, rfl⟩ := readAt_eq_next.1 hv
      rw [Memory.readLe_four] at h
      obtain ⟨hb, hi, e⟩ := loadWritePc_eq_next.1 h
      exact .inl ⟨hp, hb, by simpa using hi, by simpa using e⟩
    · rename_i hp
      exact .inr ⟨by simpa using hp, (retire_eq_next.1 h).2⟩

/-- A Read function answers a next state in two ways. -/
theorem readFunction_eq_next {i : Instr} {rd : Reg} {r : SysReg} {s t : State} (h : readFunction i rd r s = .next t) :
    t = s.advanced (width i) ∨ t = (s.setReg rd (readSpecial r s)).advanced (width i) := by
  rcases conditionalAs_eq_next h with ⟨_, h⟩ | ⟨_, _, _, h⟩
  · exact .inl (retire_eq_next.1 h).2
  · exact .inr (retire_eq_next.1 h).2

/-- A Write function answers a next state in two ways. -/
theorem writeFunction_eq_next {i : Instr} {rn : Reg} {r : SysReg} {s t : State} (h : writeFunction i rn r s = .next t) :
    t = s.advanced (width i) ∨ t = (writeSpecial r (s.reg rn) s).advanced (width i) := by
  rcases conditionalAs_eq_next h with ⟨_, h⟩ | ⟨_, _, _, h⟩
  · exact .inl (retire_eq_next.1 h).2
  · exact .inr (retire_eq_next.1 h).2

/-! ## A step -/

/-- A step is the end of a run, or the instruction it fetches. -/
theorem step_eq_next {s t : State} (h : step s = .next t) :
    (halted s = true ∧ t = s) ∨ (halted s = false ∧ ∃ i, fetchInstr s = .next i ∧ exec i s = .next t) := by
  unfold step at h
  split at h
  · rename_i hh; injection h with h; exact .inl ⟨hh, h.symm⟩
  · rename_i hh; exact .inr ⟨by simpa using hh, andThen_eq_next.1 h⟩

end Sys2Proof.Machine
end

