-- ==== Sys2Proof/Laws/PerInstr.lean ====
section
/-! SUPPORT. Statements over all instructions, one lemma per instruction. `Width`: an instruction is 2 or 4 bytes wide
(30_encoding R90), 16-bit formats 2 and 32-bit formats 4. -/

namespace Sys2Proof.Laws

open Sys2Proof.Machine

/-- The instruction's encoding has one halfword or two. -/
def Width.Statement (i : Instr) : Prop := width i = 2 ∨ width i = 4

theorem Width.lslsImm16 (rd rm : LowReg) (imm5 : BitVec 5) :
    Width.Statement (.lslsImm16 rd rm imm5) := .inl rfl
theorem Width.movsReg16 (rd rm : LowReg) :
    Width.Statement (.movsReg16 rd rm) := .inl rfl
theorem Width.lsrsImm16 (rd rm : LowReg) (imm5 : BitVec 5) :
    Width.Statement (.lsrsImm16 rd rm imm5) := .inl rfl
theorem Width.asrsImm16 (rd rm : LowReg) (imm5 : BitVec 5) :
    Width.Statement (.asrsImm16 rd rm imm5) := .inl rfl
theorem Width.addsReg16 (rd rn rm : LowReg) :
    Width.Statement (.addsReg16 rd rn rm) := .inl rfl
theorem Width.addsImm3 (rd rn : LowReg) (imm3 : BitVec 3) :
    Width.Statement (.addsImm3 rd rn imm3) := .inl rfl
theorem Width.movsImm8 (rd : LowReg) (imm8 : BitVec 8) :
    Width.Statement (.movsImm8 rd imm8) := .inl rfl
theorem Width.cmpImm8 (rn : LowReg) (imm8 : BitVec 8) :
    Width.Statement (.cmpImm8 rn imm8) := .inl rfl
theorem Width.addsImm8 (rdn : LowReg) (imm8 : BitVec 8) :
    Width.Statement (.addsImm8 rdn imm8) := .inl rfl
theorem Width.andsReg16 (rdn rm : LowReg) :
    Width.Statement (.andsReg16 rdn rm) := .inl rfl
theorem Width.eorsReg16 (rdn rm : LowReg) :
    Width.Statement (.eorsReg16 rdn rm) := .inl rfl
theorem Width.lslsReg16 (rdn rs : LowReg) :
    Width.Statement (.lslsReg16 rdn rs) := .inl rfl
theorem Width.lsrsReg16 (rdn rs : LowReg) :
    Width.Statement (.lsrsReg16 rdn rs) := .inl rfl
theorem Width.asrsReg16 (rdn rs : LowReg) :
    Width.Statement (.asrsReg16 rdn rs) := .inl rfl
theorem Width.rorsReg16 (rdn rs : LowReg) :
    Width.Statement (.rorsReg16 rdn rs) := .inl rfl
theorem Width.tstReg16 (rn rm : LowReg) :
    Width.Statement (.tstReg16 rn rm) := .inl rfl
theorem Width.rsbsZero16 (rd rn : LowReg) :
    Width.Statement (.rsbsZero16 rd rn) := .inl rfl
theorem Width.cmpReg16 (rn rm : LowReg) :
    Width.Statement (.cmpReg16 rn rm) := .inl rfl
theorem Width.cmnReg16 (rn rm : LowReg) :
    Width.Statement (.cmnReg16 rn rm) := .inl rfl
theorem Width.orrsReg16 (rdn rm : LowReg) :
    Width.Statement (.orrsReg16 rdn rm) := .inl rfl
theorem Width.bicsReg16 (rdn rm : LowReg) :
    Width.Statement (.bicsReg16 rdn rm) := .inl rfl
theorem Width.mvnsReg16 (rd rm : LowReg) :
    Width.Statement (.mvnsReg16 rd rm) := .inl rfl
theorem Width.addHigh (rdn rm : Reg) :
    Width.Statement (.addHigh rdn rm) := .inl rfl
theorem Width.cmpHigh (rn rm : Reg) :
    Width.Statement (.cmpHigh rn rm) := .inl rfl
theorem Width.movHigh (rd rm : Reg) :
    Width.Statement (.movHigh rd rm) := .inl rfl
theorem Width.bx (rm : Reg) :
    Width.Statement (.bx rm) := .inl rfl
theorem Width.blx (rm : Reg) :
    Width.Statement (.blx rm) := .inl rfl
theorem Width.ldrLit16 (rt : LowReg) (imm8 : BitVec 8) :
    Width.Statement (.ldrLit16 rt imm8) := .inl rfl
theorem Width.strReg16 (rt rn rm : LowReg) :
    Width.Statement (.strReg16 rt rn rm) := .inl rfl
theorem Width.strhReg16 (rt rn rm : LowReg) :
    Width.Statement (.strhReg16 rt rn rm) := .inl rfl
theorem Width.ldrReg16 (rt rn rm : LowReg) :
    Width.Statement (.ldrReg16 rt rn rm) := .inl rfl
theorem Width.ldrhReg16 (rt rn rm : LowReg) :
    Width.Statement (.ldrhReg16 rt rn rm) := .inl rfl
theorem Width.ldrshReg16 (rt rn rm : LowReg) :
    Width.Statement (.ldrshReg16 rt rn rm) := .inl rfl
theorem Width.strImm16 (rt rn : LowReg) (imm5 : BitVec 5) :
    Width.Statement (.strImm16 rt rn imm5) := .inl rfl
theorem Width.ldrImm16 (rt rn : LowReg) (imm5 : BitVec 5) :
    Width.Statement (.ldrImm16 rt rn imm5) := .inl rfl
theorem Width.strhImm16 (rt rn : LowReg) (imm5 : BitVec 5) :
    Width.Statement (.strhImm16 rt rn imm5) := .inl rfl
theorem Width.ldrhImm16 (rt rn : LowReg) (imm5 : BitVec 5) :
    Width.Statement (.ldrhImm16 rt rn imm5) := .inl rfl
theorem Width.strSp16 (rt : LowReg) (imm8 : BitVec 8) :
    Width.Statement (.strSp16 rt imm8) := .inl rfl
theorem Width.ldrSp16 (rt : LowReg) (imm8 : BitVec 8) :
    Width.Statement (.ldrSp16 rt imm8) := .inl rfl
theorem Width.cbz (rn : LowReg) (imm6 : BitVec 6) :
    Width.Statement (.cbz rn imm6) := .inl rfl
theorem Width.cbnz (rn : LowReg) (imm6 : BitVec 6) :
    Width.Statement (.cbnz rn imm6) := .inl rfl
theorem Width.pop16 (p : Bool) (list : BitVec 8) :
    Width.Statement (.pop16 p list) := .inl rfl
theorem Width.it (firstcond : Cond) (mask : BitVec 4) :
    Width.Statement (.it firstcond mask) := .inl rfl
theorem Width.ldm16 (rn : LowReg) (list : BitVec 8) :
    Width.Statement (.ldm16 rn list) := .inl rfl
theorem Width.bCond16 (c : Cond) (imm8 : BitVec 8) :
    Width.Statement (.bCond16 c imm8) := .inl rfl
theorem Width.b16 (imm11 : BitVec 11) :
    Width.Statement (.b16 imm11) := .inl rfl
theorem Width.andConst (sf : Bool) (rd rn : Reg) (imm12 : BitVec 12) :
    Width.Statement (.andConst sf rd rn imm12) := .inr rfl
theorem Width.bicConst (sf : Bool) (rd rn : Reg) (imm12 : BitVec 12) :
    Width.Statement (.bicConst sf rd rn imm12) := .inr rfl
theorem Width.orrConst (sf : Bool) (rd rn : Reg) (imm12 : BitVec 12) :
    Width.Statement (.orrConst sf rd rn imm12) := .inr rfl
theorem Width.ornConst (sf : Bool) (rd rn : Reg) (imm12 : BitVec 12) :
    Width.Statement (.ornConst sf rd rn imm12) := .inr rfl
theorem Width.eorConst (sf : Bool) (rd rn : Reg) (imm12 : BitVec 12) :
    Width.Statement (.eorConst sf rd rn imm12) := .inr rfl
theorem Width.addConst (sf : Bool) (rd rn : Reg) (imm12 : BitVec 12) :
    Width.Statement (.addConst sf rd rn imm12) := .inr rfl
theorem Width.rsbConst (sf : Bool) (rd rn : Reg) (imm12 : BitVec 12) :
    Width.Statement (.rsbConst sf rd rn imm12) := .inr rfl
theorem Width.tstConst (rn : Reg) (imm12 : BitVec 12) :
    Width.Statement (.tstConst rn imm12) := .inr rfl
theorem Width.teqConst (rn : Reg) (imm12 : BitVec 12) :
    Width.Statement (.teqConst rn imm12) := .inr rfl
theorem Width.cmnConst (rn : Reg) (imm12 : BitVec 12) :
    Width.Statement (.cmnConst rn imm12) := .inr rfl
theorem Width.cmpConst (rn : Reg) (imm12 : BitVec 12) :
    Width.Statement (.cmpConst rn imm12) := .inr rfl
theorem Width.movConst (sf : Bool) (rd : Reg) (imm12 : BitVec 12) :
    Width.Statement (.movConst sf rd imm12) := .inr rfl
theorem Width.mvnConst (sf : Bool) (rd : Reg) (imm12 : BitVec 12) :
    Width.Statement (.mvnConst sf rd imm12) := .inr rfl
theorem Width.andShift (sf : Bool) (rd rn rm : Reg) (ty : ShiftType) (imm5 : BitVec 5) :
    Width.Statement (.andShift sf rd rn rm ty imm5) := .inr rfl
theorem Width.bicShift (sf : Bool) (rd rn rm : Reg) (ty : ShiftType) (imm5 : BitVec 5) :
    Width.Statement (.bicShift sf rd rn rm ty imm5) := .inr rfl
theorem Width.orrShift (sf : Bool) (rd rn rm : Reg) (ty : ShiftType) (imm5 : BitVec 5) :
    Width.Statement (.orrShift sf rd rn rm ty imm5) := .inr rfl
theorem Width.ornShift (sf : Bool) (rd rn rm : Reg) (ty : ShiftType) (imm5 : BitVec 5) :
    Width.Statement (.ornShift sf rd rn rm ty imm5) := .inr rfl
theorem Width.eorShift (sf : Bool) (rd rn rm : Reg) (ty : ShiftType) (imm5 : BitVec 5) :
    Width.Statement (.eorShift sf rd rn rm ty imm5) := .inr rfl
theorem Width.addShift (sf : Bool) (rd rn rm : Reg) (ty : ShiftType) (imm5 : BitVec 5) :
    Width.Statement (.addShift sf rd rn rm ty imm5) := .inr rfl
theorem Width.rsbShift (sf : Bool) (rd rn rm : Reg) (ty : ShiftType) (imm5 : BitVec 5) :
    Width.Statement (.rsbShift sf rd rn rm ty imm5) := .inr rfl
theorem Width.tstShift (rn rm : Reg) (ty : ShiftType) (imm5 : BitVec 5) :
    Width.Statement (.tstShift rn rm ty imm5) := .inr rfl
theorem Width.teqShift (rn rm : Reg) (ty : ShiftType) (imm5 : BitVec 5) :
    Width.Statement (.teqShift rn rm ty imm5) := .inr rfl
theorem Width.cmnShift (rn rm : Reg) (ty : ShiftType) (imm5 : BitVec 5) :
    Width.Statement (.cmnShift rn rm ty imm5) := .inr rfl
theorem Width.cmpShift (rn rm : Reg) (ty : ShiftType) (imm5 : BitVec 5) :
    Width.Statement (.cmpShift rn rm ty imm5) := .inr rfl
theorem Width.movReg32 (sf : Bool) (rd rm : Reg) :
    Width.Statement (.movReg32 sf rd rm) := .inr rfl
theorem Width.lslImm32 (sf : Bool) (rd rm : Reg) (imm5 : BitVec 5) :
    Width.Statement (.lslImm32 sf rd rm imm5) := .inr rfl
theorem Width.lsrImm32 (sf : Bool) (rd rm : Reg) (imm5 : BitVec 5) :
    Width.Statement (.lsrImm32 sf rd rm imm5) := .inr rfl
theorem Width.asrImm32 (sf : Bool) (rd rm : Reg) (imm5 : BitVec 5) :
    Width.Statement (.asrImm32 sf rd rm imm5) := .inr rfl
theorem Width.rorImm32 (sf : Bool) (rd rm : Reg) (imm5 : BitVec 5) :
    Width.Statement (.rorImm32 sf rd rm imm5) := .inr rfl
theorem Width.rrx (sf : Bool) (rd rm : Reg) :
    Width.Statement (.rrx sf rd rm) := .inr rfl
theorem Width.mvnShift (sf : Bool) (rd rm : Reg) (ty : ShiftType) (imm5 : BitVec 5) :
    Width.Statement (.mvnShift sf rd rm ty imm5) := .inr rfl
theorem Width.lslReg32 (sf : Bool) (rd rm rs : Reg) :
    Width.Statement (.lslReg32 sf rd rm rs) := .inr rfl
theorem Width.lsrReg32 (sf : Bool) (rd rm rs : Reg) :
    Width.Statement (.lsrReg32 sf rd rm rs) := .inr rfl
theorem Width.asrReg32 (sf : Bool) (rd rm rs : Reg) :
    Width.Statement (.asrReg32 sf rd rm rs) := .inr rfl
theorem Width.rorReg32 (sf : Bool) (rd rm rs : Reg) :
    Width.Statement (.rorReg32 sf rd rm rs) := .inr rfl
theorem Width.bCond32 (c : Cond) (imm20 : BitVec 20) :
    Width.Statement (.bCond32 c imm20) := .inr rfl
theorem Width.b32 (imm24 : BitVec 24) :
    Width.Statement (.b32 imm24) := .inr rfl
theorem Width.bl (imm24 : BitVec 24) :
    Width.Statement (.bl imm24) := .inr rfl
theorem Width.getPrimask (rd : Reg) :
    Width.Statement (.getPrimask rd) := .inr rfl
theorem Width.setPrimask (rn : Reg) :
    Width.Statement (.setPrimask rn) := .inr rfl
theorem Width.getFaultmask (rd : Reg) :
    Width.Statement (.getFaultmask rd) := .inr rfl
theorem Width.setFaultmask (rn : Reg) :
    Width.Statement (.setFaultmask rn) := .inr rfl
theorem Width.getBasepri (rd : Reg) :
    Width.Statement (.getBasepri rd) := .inr rfl
theorem Width.setBasepri (rn : Reg) :
    Width.Statement (.setBasepri rn) := .inr rfl
theorem Width.getControl (rd : Reg) :
    Width.Statement (.getControl rd) := .inr rfl
theorem Width.setControl (rn : Reg) :
    Width.Statement (.setControl rn) := .inr rfl
theorem Width.getMsp (rd : Reg) :
    Width.Statement (.getMsp rd) := .inr rfl
theorem Width.setMsp (rn : Reg) :
    Width.Statement (.setMsp rn) := .inr rfl
theorem Width.getPsp (rd : Reg) :
    Width.Statement (.getPsp rd) := .inr rfl
theorem Width.setPsp (rn : Reg) :
    Width.Statement (.setPsp rn) := .inr rfl
theorem Width.ldrImm12 (rt rn : Reg) (imm12 : BitVec 12) :
    Width.Statement (.ldrImm12 rt rn imm12) := .inr rfl
theorem Width.ldrNeg8 (rt rn : Reg) (imm8 : BitVec 8) :
    Width.Statement (.ldrNeg8 rt rn imm8) := .inr rfl
theorem Width.ldrPre (rt rn : Reg) (u : Bool) (imm8 : BitVec 8) :
    Width.Statement (.ldrPre rt rn u imm8) := .inr rfl
theorem Width.ldrPost (rt rn : Reg) (u : Bool) (imm8 : BitVec 8) :
    Width.Statement (.ldrPost rt rn u imm8) := .inr rfl
theorem Width.ldrt (rt rn : Reg) (imm8 : BitVec 8) :
    Width.Statement (.ldrt rt rn imm8) := .inr rfl
theorem Width.ldrReg32 (rt rn rm : Reg) (imm2 : BitVec 2) :
    Width.Statement (.ldrReg32 rt rn rm imm2) := .inr rfl
theorem Width.ldrLit32 (u : Bool) (rt : Reg) (imm12 : BitVec 12) :
    Width.Statement (.ldrLit32 u rt imm12) := .inr rfl
theorem Width.ldrhImm12 (rt rn : Reg) (imm12 : BitVec 12) :
    Width.Statement (.ldrhImm12 rt rn imm12) := .inr rfl
theorem Width.ldrhNeg8 (rt rn : Reg) (imm8 : BitVec 8) :
    Width.Statement (.ldrhNeg8 rt rn imm8) := .inr rfl
theorem Width.ldrhPre (rt rn : Reg) (u : Bool) (imm8 : BitVec 8) :
    Width.Statement (.ldrhPre rt rn u imm8) := .inr rfl
theorem Width.ldrhPost (rt rn : Reg) (u : Bool) (imm8 : BitVec 8) :
    Width.Statement (.ldrhPost rt rn u imm8) := .inr rfl
theorem Width.ldrht (rt rn : Reg) (imm8 : BitVec 8) :
    Width.Statement (.ldrht rt rn imm8) := .inr rfl
theorem Width.ldrhReg32 (rt rn rm : Reg) (imm2 : BitVec 2) :
    Width.Statement (.ldrhReg32 rt rn rm imm2) := .inr rfl
theorem Width.ldrhLit32 (u : Bool) (rt : Reg) (imm12 : BitVec 12) :
    Width.Statement (.ldrhLit32 u rt imm12) := .inr rfl
theorem Width.ldrshImm12 (rt rn : Reg) (imm12 : BitVec 12) :
    Width.Statement (.ldrshImm12 rt rn imm12) := .inr rfl
theorem Width.ldrshNeg8 (rt rn : Reg) (imm8 : BitVec 8) :
    Width.Statement (.ldrshNeg8 rt rn imm8) := .inr rfl
theorem Width.ldrshPre (rt rn : Reg) (u : Bool) (imm8 : BitVec 8) :
    Width.Statement (.ldrshPre rt rn u imm8) := .inr rfl
theorem Width.ldrshPost (rt rn : Reg) (u : Bool) (imm8 : BitVec 8) :
    Width.Statement (.ldrshPost rt rn u imm8) := .inr rfl
theorem Width.ldrsht (rt rn : Reg) (imm8 : BitVec 8) :
    Width.Statement (.ldrsht rt rn imm8) := .inr rfl
theorem Width.ldrshReg32 (rt rn rm : Reg) (imm2 : BitVec 2) :
    Width.Statement (.ldrshReg32 rt rn rm imm2) := .inr rfl
theorem Width.ldrshLit32 (u : Bool) (rt : Reg) (imm12 : BitVec 12) :
    Width.Statement (.ldrshLit32 u rt imm12) := .inr rfl
theorem Width.strImm12 (rt rn : Reg) (imm12 : BitVec 12) :
    Width.Statement (.strImm12 rt rn imm12) := .inr rfl
theorem Width.strNeg8 (rt rn : Reg) (imm8 : BitVec 8) :
    Width.Statement (.strNeg8 rt rn imm8) := .inr rfl
theorem Width.strPre (rt rn : Reg) (u : Bool) (imm8 : BitVec 8) :
    Width.Statement (.strPre rt rn u imm8) := .inr rfl
theorem Width.strPost (rt rn : Reg) (u : Bool) (imm8 : BitVec 8) :
    Width.Statement (.strPost rt rn u imm8) := .inr rfl
theorem Width.strt (rt rn : Reg) (imm8 : BitVec 8) :
    Width.Statement (.strt rt rn imm8) := .inr rfl
theorem Width.strReg32 (rt rn rm : Reg) (imm2 : BitVec 2) :
    Width.Statement (.strReg32 rt rn rm imm2) := .inr rfl
theorem Width.strhImm12 (rt rn : Reg) (imm12 : BitVec 12) :
    Width.Statement (.strhImm12 rt rn imm12) := .inr rfl
theorem Width.strhNeg8 (rt rn : Reg) (imm8 : BitVec 8) :
    Width.Statement (.strhNeg8 rt rn imm8) := .inr rfl
theorem Width.strhPre (rt rn : Reg) (u : Bool) (imm8 : BitVec 8) :
    Width.Statement (.strhPre rt rn u imm8) := .inr rfl
theorem Width.strhPost (rt rn : Reg) (u : Bool) (imm8 : BitVec 8) :
    Width.Statement (.strhPost rt rn u imm8) := .inr rfl
theorem Width.strht (rt rn : Reg) (imm8 : BitVec 8) :
    Width.Statement (.strht rt rn imm8) := .inr rfl
theorem Width.strhReg32 (rt rn rm : Reg) (imm2 : BitVec 2) :
    Width.Statement (.strhReg32 rt rn rm imm2) := .inr rfl
theorem Width.ldm32 (w : Bool) (rn : Reg) (p m : Bool) (list : BitVec 13) :
    Width.Statement (.ldm32 w rn p m list) := .inr rfl
theorem Width.ldmdb (w : Bool) (rn : Reg) (p m : Bool) (list : BitVec 13) :
    Width.Statement (.ldmdb w rn p m list) := .inr rfl
theorem Width.popW (p m : Bool) (list : BitVec 13) :
    Width.Statement (.popW p m list) := .inr rfl
theorem Width.popWOne (rt : Reg) :
    Width.Statement (.popWOne rt) := .inr rfl

end Sys2Proof.Laws
end

