-- ==== Sys2Proof/Tests/Slice0.lean ====
section
/-! SUPPORT. Small tests: ill-formed terms that WellFormed refuses, the words of the spec's encodings decoded, one step of
every instruction with the results of 95_test_vectors or by hand from the rules, where a step stops, and for every
statement with hypotheses a state and operands that meet them. -/

namespace Sys2Proof.Tests

open Sys2Proof Sys2Proof.Machine

/-! ## WellFormed: one ill-formed term for each check, refused -/

theorem test_form_lsl_by_0 : (Instr.lslsImm16 .r0 .r1 0#5).wellFormed = false := by decide
theorem test_form_high_sp : (Instr.addHigh .sp .r0).wellFormed = false := by decide
theorem test_form_high_pc : (Instr.movHigh .pc .r0).wellFormed = false := by decide
theorem test_form_cmp_high_both_low : (Instr.cmpHigh .r0 .r7).wellFormed = false := by decide
theorem test_form_bx_pc : (Instr.bx .pc).wellFormed = false := by decide
theorem test_form_blx_sp : (Instr.blx .sp).wellFormed = false := by decide
theorem test_form_pop_empty : (Instr.pop16 false 0#8).wellFormed = false := by decide
theorem test_form_ldm16_empty : (Instr.ldm16 .r0 0#8).wellFormed = false := by decide
theorem test_form_it_mask_0 : (Instr.it .eq 0#4).wellFormed = false := by decide
theorem test_form_it_al_else : (Instr.it .al 0b1100#4).wellFormed = false := by decide
theorem test_form_bcond_al :
    (Instr.bCond16 .al 0#8).wellFormed = false ∧ (Instr.bCond32 .al 0#20).wellFormed = false := by decide
theorem test_form_const_sp : (Instr.addConst false .r0 .sp 4#12).wellFormed = false := by decide
theorem test_form_const_field : (Instr.movConst false .r0 0x100#12).wellFormed = false := by decide
theorem test_form_test_const_field : (Instr.cmpConst .r0 0x300#12).wellFormed = false := by decide
theorem test_form_shifted_pc : (Instr.andShift false .r0 .r1 .pc .lsl 0#5).wellFormed = false := by decide
theorem test_form_test_shifted_sp : (Instr.tstShift .sp .r1 .lsl 0#5).wellFormed = false := by decide
theorem test_form_mov_sp : (Instr.movReg32 false .sp .r1).wellFormed = false := by decide
theorem test_form_ror_by_0 : (Instr.rorImm32 false .r0 .r1 0#5).wellFormed = false := by decide
theorem test_form_asr_sp : (Instr.asrImm32 false .r0 .sp 1#5).wellFormed = false := by decide
theorem test_form_mvn_pc : (Instr.mvnShift false .pc .r1 .lsl 0#5).wellFormed = false := by decide
theorem test_form_shift_by_sp : (Instr.lslReg32 false .r0 .r1 .sp).wellFormed = false := by decide
theorem test_form_mrs_sp : (Instr.getMsp .sp).wellFormed = false ∧ (Instr.setMsp .pc).wellFormed = false := by decide
theorem test_form_ldr_base_pc : (Instr.ldrImm12 .r0 .pc 0#12).wellFormed = false := by decide
theorem test_form_ldr_pre_same : (Instr.ldrPre .r1 .r1 true 4#8).wellFormed = false := by decide
theorem test_form_ldr_post_is_pop : (Instr.ldrPost .r1 .sp true 4#8).wellFormed = false := by decide
theorem test_form_ldrt_pc : (Instr.ldrt .pc .r1 0#8).wellFormed = false := by decide
theorem test_form_ldr_index_sp : (Instr.ldrReg32 .r0 .r1 .sp 0#2).wellFormed = false := by decide
theorem test_form_ldrh_pc : (Instr.ldrhImm12 .pc .r1 0#12).wellFormed = false := by decide
theorem test_form_ldrsh_pre_sp : (Instr.ldrshPre .sp .r1 true 0#8).wellFormed = false := by decide
theorem test_form_ldrh_index_pc : (Instr.ldrhReg32 .r0 .r1 .pc 0#2).wellFormed = false := by decide
theorem test_form_ldrh_literal_sp : (Instr.ldrhLit32 true .sp 0#12).wellFormed = false := by decide
theorem test_form_str_pc : (Instr.strImm12 .pc .r1 0#12).wellFormed = false := by decide
theorem test_form_str_post_same : (Instr.strPost .r1 .r1 true 4#8).wellFormed = false := by decide
theorem test_form_strt_sp : (Instr.strt .sp .r1 0#8).wellFormed = false := by decide
theorem test_form_str_index_sp : (Instr.strReg32 .r0 .r1 .sp 0#2).wellFormed = false := by decide
theorem test_form_strh_base_pc : (Instr.strhImm12 .r0 .pc 0#12).wellFormed = false := by decide
theorem test_form_strh_pre_same : (Instr.strhPre .r1 .r1 true 4#8).wellFormed = false := by decide
theorem test_form_strh_index_pc : (Instr.strhReg32 .r0 .r1 .pc 0#2).wellFormed = false := by decide
theorem test_form_ldm_one : (Instr.ldm32 false .r0 false false 2#13).wellFormed = false := by decide
theorem test_form_ldm_pc_and_lr : (Instr.ldm32 false .r0 true true 2#13).wellFormed = false := by decide
theorem test_form_ldm_sp_writeback : (Instr.ldm32 true .sp false false 6#13).wellFormed = false := by decide
theorem test_form_ldm_base_in_list : (Instr.ldmdb true .r1 false false 6#13).wellFormed = false := by decide
theorem test_form_ldm_base_pc : (Instr.ldmdb false .pc false false 6#13).wellFormed = false := by decide
theorem test_form_pop_w_one_reg : (Instr.popW true false 0#13).wellFormed = false := by decide
theorem test_form_pop_w_sp : (Instr.popWOne .sp).wellFormed = false := by decide

/-! ## Decoding: the example words of spec/opcode_table.json, by format -/

/-- The table's example words of T16.SHI: lsls r0, r1, #2; movs r0, r1; lsrs r0, r0, #1; asrs r0, r1, #3. -/
theorem test_decode_t16_shi :
    [0x0088, 0x0008, 0x0840, 0x10C8].map (decodeTableWord 16) =
      [some (.lslsImm16 .r0 .r1 0x2#5), some (.movsReg16 .r0 .r1), some (.lsrsImm16 .r0 .r0 0x1#5), some (.asrsImm16
      .r0 .r1 0x3#5)] := by decide

/-- The table's example words of T16.ADD3: adds r0, r0, r1; adds r1, r1, #1. -/
theorem test_decode_t16_add3 :
    [0x1840, 0x1C49].map (decodeTableWord 16) =
      [some (.addsReg16 .r0 .r0 .r1), some (.addsImm3 .r1 .r1 0x1#3)] := by decide

/-- The table's example words of T16.IMM8: movs r1, #0; cmp r0, #0; adds r0, #200. -/
theorem test_decode_t16_imm8 :
    [0x2100, 0x2800, 0x30C8].map (decodeTableWord 16) =
      [some (.movsImm8 .r1 0x0#8), some (.cmpImm8 .r0 0x0#8), some (.addsImm8 .r0 0xC8#8)] := by decide

/-- The table's example words of T16.DP: ands r0, r1; eors r0, r1; lsls r0, r1; lsrs r0, r1; asrs r0, r1; rors r0, r1;
tst r0, r1; rsbs r0, r0, #0; cmp r0, r1; cmn r0, r1; orrs r0, r1; bics r0, r1; mvns r2, r3. -/
theorem test_decode_t16_dp :
    [0x4008, 0x4048, 0x4088, 0x40C8, 0x4108, 0x41C8, 0x4208, 0x4240, 0x4288, 0x42C8, 0x4308, 0x4388, 0x43DA].map
    (decodeTableWord 16) =
      [some (.andsReg16 .r0 .r1), some (.eorsReg16 .r0 .r1), some (.lslsReg16 .r0 .r1), some (.lsrsReg16 .r0 .r1),
      some (.asrsReg16 .r0 .r1), some (.rorsReg16 .r0 .r1), some (.tstReg16 .r0 .r1), some (.rsbsZero16 .r0 .r0),
      some (.cmpReg16 .r0 .r1), some (.cmnReg16 .r0 .r1), some (.orrsReg16 .r0 .r1), some (.bicsReg16 .r0 .r1), some
      (.mvnsReg16 .r2 .r3)] := by decide

/-- The table's example words of T16.SPECIAL: add r0, r1; cmp r8, r1; mov r4, r5; bx lr; blx r3. -/
theorem test_decode_t16_special :
    [0x4408, 0x4588, 0x462C, 0x4770, 0x4798].map (decodeTableWord 16) =
      [some (.addHigh .r0 .r1), some (.cmpHigh .r8 .r1), some (.movHigh .r4 .r5), some (.bx .lr), some (.blx .r3)] :=
      by decide

/-- The table's example words of T16.LDRLIT: ldr r0, [pc, #8]. -/
theorem test_decode_t16_ldrlit :
    [0x4802].map (decodeTableWord 16) =
      [some (.ldrLit16 .r0 0x2#8)] := by decide

/-- The table's example words of T16.LSREG: str r4, [r0, r1]; strh r4, [r0, r1]; ldr r4, [r0, r1]; ldrh r4, [r0, r1];
ldrsh r4, [r0, r1]. -/
theorem test_decode_t16_lsreg :
    [0x5044, 0x5244, 0x5844, 0x5A44, 0x5E44].map (decodeTableWord 16) =
      [some (.strReg16 .r4 .r0 .r1), some (.strhReg16 .r4 .r0 .r1), some (.ldrReg16 .r4 .r0 .r1), some (.ldrhReg16
      .r4 .r0 .r1), some (.ldrshReg16 .r4 .r0 .r1)] := by decide

/-- The table's example words of T16.LSIMM: str r2, [r1]; ldr r2, [r0]; strh r2, [r1]; ldrh r3, [r0, #2]. -/
theorem test_decode_t16_lsimm :
    [0x600A, 0x6802, 0x800A, 0x8843].map (decodeTableWord 16) =
      [some (.strImm16 .r2 .r1 0x0#5), some (.ldrImm16 .r2 .r0 0x0#5), some (.strhImm16 .r2 .r1 0x0#5), some
      (.ldrhImm16 .r3 .r0 0x1#5)] := by decide

/-- The table's example words of T16.LSSP: str r2, [sp, #4]; ldr r2, [sp, #4]. -/
theorem test_decode_t16_lssp :
    [0x9201, 0x9A01].map (decodeTableWord 16) =
      [some (.strSp16 .r2 0x1#8), some (.ldrSp16 .r2 0x1#8)] := by decide

/-- The table's example words of T16.CB: cbz r0, label; cbnz r0, label. -/
theorem test_decode_t16_cb :
    [0xB110, 0xB900].map (decodeTableWord 16) =
      [some (.cbz .r0 0x2#6), some (.cbnz .r0 0x0#6)] := by decide

/-- The table's example words of T16.POP: pop (r0, r1, pc). -/
theorem test_decode_t16_pop :
    [0xBD03].map (decodeTableWord 16) =
      [some (.pop16 true 0x3#8)] := by decide

/-- The table's example words of T16.IT: it mi. -/
theorem test_decode_t16_it :
    [0xBF48].map (decodeTableWord 16) =
      [some (.it .mi 0x8#4)] := by decide

/-- The table's example words of T16.LDM: ldm r0!, (r4, r5). -/
theorem test_decode_t16_ldm :
    [0xC830].map (decodeTableWord 16) =
      [some (.ldm16 .r0 0x30#8)] := by decide

/-- The table's example words of T16.BCOND: bne label. -/
theorem test_decode_t16_bcond :
    [0xD1FA].map (decodeTableWord 16) =
      [some (.bCond16 .ne 0xFA#8)] := by decide

/-- The table's example words of T16.B: b label. -/
theorem test_decode_t16_b :
    [0xE7FE].map (decodeTableWord 16) =
      [some (.b16 0x7FE#11)] := by decide

/-- The table's example words of T32.DPMI: ands.w r0, r1, #0xff00; bics.w r0, r1, #0xff00; orrs.w r0, r1, #0xff00;
orns.w r0, r1, #0xff00; eors.w r0, r1, #0xff00; adds.w r0, r1, #0xff00; rsbs.w r0, r1, #0xff00; tst.w r0, #0xff00;
teq.w r0, #0xff00; cmn.w r0, #0xff00; cmp.w r0, #0xff00; mov.w r0, #0x80000000; mvns r0, #0x80000000. -/
theorem test_decode_t32_dpmi :
    [0xF411407F, 0xF431407F, 0xF451407F, 0xF471407F, 0xF491407F, 0xF511407F, 0xF5D1407F, 0xF4104F7F, 0xF4904F7F,
    0xF5104F7F, 0xF5B04F7F, 0xF04F4000, 0xF07F4000].map (decodeTableWord 32) =
      [some (.andConst true .r0 .r1 0xC7F#12), some (.bicConst true .r0 .r1 0xC7F#12), some (.orrConst true .r0 .r1
      0xC7F#12), some (.ornConst true .r0 .r1 0xC7F#12), some (.eorConst true .r0 .r1 0xC7F#12), some (.addConst true
      .r0 .r1 0xC7F#12), some (.rsbConst true .r0 .r1 0xC7F#12), some (.tstConst .r0 0xC7F#12), some (.teqConst .r0
      0xC7F#12), some (.cmnConst .r0 0xC7F#12), some (.cmpConst .r0 0xC7F#12), some (.movConst false .r0 0x400#12),
      some (.mvnConst true .r0 0x400#12)] := by decide

/-- The table's example words of T32.DPSR: ands.w r0, r1, r2, lsr #1; bics.w r0, r1, r2, lsr #1; orrs.w r0, r1, r2,
lsr #1; orns.w r0, r1, r2, lsr #1; eors.w r0, r1, r2, lsr #1; adds.w r0, r1, r2, lsr #1; rsbs.w r0, r1, r2, lsr #1;
tst.w r0, r2, lsr #1; teq.w r0, r2, lsr #1; cmn.w r0, r2, lsr #1; cmp.w r0, r2, lsr #1; mov.w r0, r1; lsl.w r0, r1,
#3; lsr.w r0, r1, #3; asr.w r0, r1, #3; ror r0, r1, #3; rrx r0, r1; mvn.w r0, r1, lsl #2. -/
theorem test_decode_t32_dpsr :
    [0xEA110052, 0xEA310052, 0xEA510052, 0xEA710052, 0xEA910052, 0xEB110052, 0xEBD10052, 0xEA100F52, 0xEA900F52,
    0xEB100F52, 0xEBB00F52, 0xEA4F0001, 0xEA4F00C1, 0xEA4F00D1, 0xEA4F00E1, 0xEA4F00F1, 0xEA4F0031, 0xEA6F0081].map
    (decodeTableWord 32) =
      [some (.andShift true .r0 .r1 .r2 .lsr 0x1#5), some (.bicShift true .r0 .r1 .r2 .lsr 0x1#5), some (.orrShift
      true .r0 .r1 .r2 .lsr 0x1#5), some (.ornShift true .r0 .r1 .r2 .lsr 0x1#5), some (.eorShift true .r0 .r1 .r2
      .lsr 0x1#5), some (.addShift true .r0 .r1 .r2 .lsr 0x1#5), some (.rsbShift true .r0 .r1 .r2 .lsr 0x1#5), some
      (.tstShift .r0 .r2 .lsr 0x1#5), some (.teqShift .r0 .r2 .lsr 0x1#5), some (.cmnShift .r0 .r2 .lsr 0x1#5), some
      (.cmpShift .r0 .r2 .lsr 0x1#5), some (.movReg32 false .r0 .r1), some (.lslImm32 false .r0 .r1 0x3#5), some
      (.lsrImm32 false .r0 .r1 0x3#5), some (.asrImm32 false .r0 .r1 0x3#5), some (.rorImm32 false .r0 .r1 0x3#5),
      some (.rrx false .r0 .r1), some (.mvnShift false .r0 .r1 .lsl 0x2#5)] := by decide

/-- The table's example words of T32.SHREG: lsl.w r0, r1, r2; lsr.w r0, r1, r2; asr.w r0, r1, r2; ror.w r0, r1, r2. -/
theorem test_decode_t32_shreg :
    [0xFA01F002, 0xFA21F002, 0xFA41F002, 0xFA61F002].map (decodeTableWord 32) =
      [some (.lslReg32 false .r0 .r1 .r2), some (.lsrReg32 false .r0 .r1 .r2), some (.asrReg32 false .r0 .r1 .r2),
      some (.rorReg32 false .r0 .r1 .r2)] := by decide

/-- The table's example words of T32.BCOND: bcs.w label. -/
theorem test_decode_t32_bcond :
    [0xF0808000].map (decodeTableWord 32) =
      [some (.bCond32 .cs 0x0#20)] := by decide

/-- The table's example words of T32.B: b.w label. -/
theorem test_decode_t32_b :
    [0xF000B800].map (decodeTableWord 32) =
      [some (.b32 0x0#24)] := by decide

/-- The table's example words of T32.BL: bl label. -/
theorem test_decode_t32_bl :
    [0xF000F802].map (decodeTableWord 32) =
      [some (.bl 0x2#24)] := by decide

/-- The table's example words of T32.MRS: mrs r1, primask; mrs r1, faultmask; mrs r1, basepri; mrs r1, control; mrs
r1, msp; mrs r1, psp. -/
theorem test_decode_t32_mrs :
    [0xF3EF8110, 0xF3EF8113, 0xF3EF8111, 0xF3EF8114, 0xF3EF8108, 0xF3EF8109].map (decodeTableWord 32) =
      [some (.getPrimask .r1), some (.getFaultmask .r1), some (.getBasepri .r1), some (.getControl .r1), some
      (.getMsp .r1), some (.getPsp .r1)] := by decide

/-- The table's example words of T32.MSR: msr primask, r0; msr faultmask, r0; msr basepri, r0; msr control, r0; msr
msp, r0; msr psp, r0. -/
theorem test_decode_t32_msr :
    [0xF3808810, 0xF3808813, 0xF3808811, 0xF3808814, 0xF3808808, 0xF3808809].map (decodeTableWord 32) =
      [some (.setPrimask .r0), some (.setFaultmask .r0), some (.setBasepri .r0), some (.setControl .r0), some
      (.setMsp .r0), some (.setPsp .r0)] := by decide

/-- The table's example words of T32.LS12: ldr.w r2, [r0, #1]; ldrh.w r3, [r0, #1]; ldrsh.w r3, [r0, #1]; str.w r2,
[r0, #1]; strh.w r3, [r0, #1]. -/
theorem test_decode_t32_ls12 :
    [0xF8D02001, 0xF8B03001, 0xF9B03001, 0xF8C02001, 0xF8A03001].map (decodeTableWord 32) =
      [some (.ldrImm12 .r2 .r0 0x1#12), some (.ldrhImm12 .r3 .r0 0x1#12), some (.ldrshImm12 .r3 .r0 0x1#12), some
      (.strImm12 .r2 .r0 0x1#12), some (.strhImm12 .r3 .r0 0x1#12)] := by decide

/-- The table's example words of T32.LS8: ldr r2, [r0, #-4]; ldr r2, [r0, #4]!; ldr r2, [r0], #8; ldrt r2, [r0, #4];
ldrh r3, [r0, #-4]; ldrh r3, [r0, #4]!; ldrh r3, [r0], #8; ldrht r3, [r0, #4]; ldrsh r3, [r0, #-4]; ldrsh r3, [r0,
#4]!; ldrsh r3, [r0], #8; ldrsht r3, [r0, #4]; str r2, [r0, #-4]; str r2, [r0, #4]!; str r2, [r0], #8; strt r2, [r0,
#4]; strh r3, [r0, #-4]; strh r3, [r0, #4]!; strh r3, [r0], #8; strht r3, [r0, #4]. -/
theorem test_decode_t32_ls8 :
    [0xF8502C04, 0xF8502F04, 0xF8502B08, 0xF8502E04, 0xF8303C04, 0xF8303F04, 0xF8303B08, 0xF8303E04, 0xF9303C04,
    0xF9303F04, 0xF9303B08, 0xF9303E04, 0xF8402C04, 0xF8402F04, 0xF8402B08, 0xF8402E04, 0xF8203C04, 0xF8203F04,
    0xF8203B08, 0xF8203E04].map (decodeTableWord 32) =
      [some (.ldrNeg8 .r2 .r0 0x4#8), some (.ldrPre .r2 .r0 true 0x4#8), some (.ldrPost .r2 .r0 true 0x8#8), some
      (.ldrt .r2 .r0 0x4#8), some (.ldrhNeg8 .r3 .r0 0x4#8), some (.ldrhPre .r3 .r0 true 0x4#8), some (.ldrhPost .r3
      .r0 true 0x8#8), some (.ldrht .r3 .r0 0x4#8), some (.ldrshNeg8 .r3 .r0 0x4#8), some (.ldrshPre .r3 .r0 true
      0x4#8), some (.ldrshPost .r3 .r0 true 0x8#8), some (.ldrsht .r3 .r0 0x4#8), some (.strNeg8 .r2 .r0 0x4#8), some
      (.strPre .r2 .r0 true 0x4#8), some (.strPost .r2 .r0 true 0x8#8), some (.strt .r2 .r0 0x4#8), some (.strhNeg8
      .r3 .r0 0x4#8), some (.strhPre .r3 .r0 true 0x4#8), some (.strhPost .r3 .r0 true 0x8#8), some (.strht .r3 .r0
      0x4#8)] := by decide

/-- The table's example words of T32.LSR: ldr.w r2, [r0, r1, lsl #2]; ldrh.w r3, [r0, r1, lsl #2]; ldrsh.w r3, [r0,
r1, lsl #2]; str.w r2, [r0, r1, lsl #2]; strh.w r3, [r0, r1, lsl #2]. -/
theorem test_decode_t32_lsr :
    [0xF8502021, 0xF8303021, 0xF9303021, 0xF8402021, 0xF8203021].map (decodeTableWord 32) =
      [some (.ldrReg32 .r2 .r0 .r1 0x2#2), some (.ldrhReg32 .r3 .r0 .r1 0x2#2), some (.ldrshReg32 .r3 .r0 .r1 0x2#2),
      some (.strReg32 .r2 .r0 .r1 0x2#2), some (.strhReg32 .r3 .r0 .r1 0x2#2)] := by decide

/-- The table's example words of T32.LSLIT: ldr.w r2, [pc, #8]; ldrh.w r3, [pc, #8]; ldrsh.w r3, [pc, #8]. -/
theorem test_decode_t32_lslit :
    [0xF8DF2008, 0xF8BF3008, 0xF9BF3008].map (decodeTableWord 32) =
      [some (.ldrLit32 true .r2 0x8#12), some (.ldrhLit32 true .r3 0x8#12), some (.ldrshLit32 true .r3 0x8#12)] := by
      decide

/-- The table's example words of T32.LDM: ldm.w r0, (r1, r2); ldmdb r0!, (r1, r2); pop.w (r0, r1, pc). -/
theorem test_decode_t32_ldm :
    [0xE8900006, 0xE9300006, 0xE8BD8003].map (decodeTableWord 32) =
      [some (.ldm32 false .r0 false false 0x6#13), some (.ldmdb true .r0 false false 0x6#13), some (.popW true false
      0x3#13)] := by decide

/-- The table's example words of T32.POP1: pop.w (r8). -/
theorem test_decode_t32_pop1 :
    [0xF85D8B04].map (decodeTableWord 32) =
      [some (.popWOne .r8)] := by decide

/-- Words that are no instruction (95_test_vectors 2.10; 30_encoding R104). -/
theorem test_decode_invalid :
    [(16, 0xBF00), (16, 0xDE00), (16, 0x4478), (16, 0xC800), (32, 0xF3EF8115), (32, 0xF04F1000), (32, 0xE8900002),
      (32, 0xFFFFFFFF)].map (fun p => decodeTableWord p.1 p.2) = List.replicate 8 none := by decide

/-! ## One step of each instruction

Every word is one of the spec's encodings. The instruction stands at 0x08000002, outside an IT block; N, Z and V start as 1;
the bytes 11 22 33 44 55 66 77 88 stand at 0x20000000, the words 1, 2, 0x08000101 at 0x20000100, and 0xCAFEF00D at
0x0800000C. -/

/-- The memory of 95_test_vectors 2.6 and 2.7, and a literal. -/
def vectorMemory : Memory :=
  ((((Memory.writeBytes [] 0x20000000 [0x11#8, 0x22#8, 0x33#8, 0x44#8, 0x55#8, 0x66#8, 0x77#8, 0x88#8]).writeLe 0x20000100 4
    1#32).writeLe 0x20000104 4 2#32).writeLe 0x20000108 4 0x08000101#32).writeLe 0x0800000C 4 0xCAFEF00D#32

/-- The state before the instruction, with the registers and the carry given. -/
def start (rs : List (Reg × Word)) (c : Bool) : State :=
  State.setRegs { State.reset with
    pc := 0x08000002#32, mem := vectorMemory, flags := { n := true, z := true, c := c, v := true } } rs

/-- Decode a word and execute it. -/
def run (nbits w : Nat) (s : State) : Option State :=
  match decodeTableWord nbits w with
  | none => none
  | some i =>
    match exec i s with
    | .next t => some t
    | .fault _ => none
    | .refused _ => none

/-- N, Z, C, V as a number. -/
def flagBits (f : Flags) : Nat := 8 * f.n.toNat + 4 * f.z.toNat + 2 * f.c.toNat + f.v.toNat

/-- Registers and flags after the instruction. -/
def seen (nbits w : Nat) (s : State) (rs : List Reg) : Option (List Word × Nat) :=
  (run nbits w s).map fun t => (rs.map t.reg, flagBits t.flags)

/-- The eight bytes at 0x20000000 and some registers after the instruction. -/
def bytesAfter (nbits w : Nat) (s : State) (rs : List Reg) : Option (List Byte × List Word) :=
  (run nbits w s).map fun t => (t.mem.readBytes 0x20000000 8, rs.map t.reg)

/-! ## 16-bit data processing and shifts (95_test_vectors 2.4, 2.5; the others by hand from the rules) -/

theorem test_lsls_imm16 :
    seen 16 0x07C8 (start [(.r1, 0x3#32)] false) [.r0] =
      some ([0x80000000#32], 0b1011) := by decide

theorem test_movs_reg16 :
    seen 16 0x0008 (start [(.r1, 0xFFFFFFFB#32)] true) [.r0] =
      some ([0xFFFFFFFB#32], 0b1011) := by decide

theorem test_lsrs_imm16_of_32 :
    seen 16 0x0808 (start [(.r1, 0x80000000#32)] false) [.r0] =
      some ([0x0#32], 0b0111) := by decide

theorem test_lsrs_imm16 :
    seen 16 0x0840 (start [(.r0, 0xB#32)] false) [.r0] =
      some ([0x5#32], 0b0011) := by decide

theorem test_asrs_imm16 :
    seen 16 0x10C8 (start [(.r1, 0x80000015#32)] false) [.r0] =
      some ([0xF0000002#32], 0b1011) := by decide

theorem test_asrs_imm16_of_32 :
    seen 16 0x1008 (start [(.r1, 0x80000000#32)] false) [.r0] =
      some ([0xFFFFFFFF#32], 0b1011) := by decide

theorem test_adds_reg16 :
    seen 16 0x1840 (start [(.r0, 0xFFFFFFFF#32), (.r1, 0x1#32)] false) [.r0] =
      some ([0x0#32], 0b0110) := by decide

theorem test_adds_imm3 :
    seen 16 0x1C49 (start [(.r1, 0x7FFFFFFF#32)] false) [.r1] =
      some ([0x80000000#32], 0b1001) := by decide

theorem test_movs_imm8 :
    seen 16 0x2100 (start [(.r1, 0x7#32)] true) [.r1] =
      some ([0x0#32], 0b0111) := by decide

theorem test_cmp_imm8 :
    seen 16 0x2800 (start [(.r0, 0x80000000#32)] false) [.r0] =
      some ([0x80000000#32], 0b1010) := by decide

theorem test_adds_imm8 :
    seen 16 0x30C8 (start [(.r0, 0xFFFFFF38#32)] false) [.r0] =
      some ([0x0#32], 0b0110) := by decide

theorem test_ands_reg16 :
    seen 16 0x4008 (start [(.r0, 0xF0F0#32), (.r1, 0xFF#32)] true) [.r0] =
      some ([0xF0#32], 0b0011) := by decide

theorem test_eors_reg16 :
    seen 16 0x4048 (start [(.r0, 0xFF#32), (.r1, 0xFF#32)] false) [.r0] =
      some ([0x0#32], 0b0101) := by decide

theorem test_lsls_reg16 :
    seen 16 0x4088 (start [(.r0, 0x1#32), (.r1, 0x20#32)] false) [.r0] =
      some ([0x0#32], 0b0111) := by decide

theorem test_lsrs_reg16 :
    seen 16 0x40C8 (start [(.r0, 0xFFFFFFFF#32), (.r1, 0x21#32)] true) [.r0] =
      some ([0x0#32], 0b0101) := by decide

theorem test_asrs_reg16_by_0 :
    seen 16 0x4108 (start [(.r0, 0x80000000#32), (.r1, 0x100#32)] true) [.r0] =
      some ([0x80000000#32], 0b1011) := by decide

theorem test_rors_reg16 :
    seen 16 0x41C8 (start [(.r0, 0x12345678#32), (.r1, 0x128#32)] true) [.r0] =
      some ([0x78123456#32], 0b0001) := by decide

theorem test_tst_reg16 :
    seen 16 0x4208 (start [(.r0, 0x1#32), (.r1, 0x2#32)] true) [.r0] =
      some ([0x1#32], 0b0111) := by decide

theorem test_rsbs_zero16 :
    seen 16 0x4240 (start [(.r0, 0x80000000#32)] true) [.r0] =
      some ([0x80000000#32], 0b1001) := by decide

theorem test_cmp_reg16 :
    seen 16 0x4288 (start [(.r0, 0x5#32), (.r1, 0x3#32)] false) [.r0] =
      some ([0x5#32], 0b0010) := by decide

theorem test_cmn_reg16 :
    seen 16 0x42C8 (start [(.r0, 0x80000000#32), (.r1, 0x80000000#32)] false) [.r0] =
      some ([0x80000000#32], 0b0111) := by decide

theorem test_orrs_reg16 :
    seen 16 0x4308 (start [(.r0, 0x80000000#32), (.r1, 0x1#32)] false) [.r0] =
      some ([0x80000001#32], 0b1001) := by decide

theorem test_bics_reg16 :
    seen 16 0x4388 (start [(.r0, 0xFF#32), (.r1, 0xF#32)] false) [.r0] =
      some ([0xF0#32], 0b0001) := by decide

theorem test_mvns_reg16 :
    seen 16 0x43DA (start [(.r3, 0xFFFF#32)] true) [.r2] =
      some ([0xFFFF0000#32], 0b1011) := by decide

theorem test_add_high :
    seen 16 0x4408 (start [(.r0, 0x80000000#32), (.r1, 0x80000000#32)] false) [.r0] =
      some ([0x0#32], 0b1101) := by decide

theorem test_cmp_high :
    seen 16 0x4588 (start [(.r8, 0x3#32), (.r1, 0x5#32)] true) [.r8] =
      some ([0x3#32], 0b1000) := by decide

theorem test_mov_high :
    seen 16 0x462C (start [(.r5, 0x80000000#32)] false) [.r4] =
      some ([0x80000000#32], 0b1101) := by decide

/-! ## 32-bit data processing (95_test_vectors 2.4; the others by hand) -/

theorem test_ands_const :
    seen 32 0xF411407F (start [(.r1, 0x12345678#32)] true) [.r0] =
      some ([0x5600#32], 0b0001) := by decide

theorem test_ands_const_byte :
    seen 32 0xF01100FF (start [(.r1, 0x12345678#32)] true) [.r0] =
      some ([0x78#32], 0b0011) := by decide

theorem test_bics_const :
    seen 32 0xF431407F (start [(.r1, 0x12345678#32)] true) [.r0] =
      some ([0x12340078#32], 0b0001) := by decide

theorem test_orrs_const :
    seen 32 0xF451407F (start [(.r1, 0x80000000#32)] true) [.r0] =
      some ([0x8000FF00#32], 0b1001) := by decide

theorem test_orns_const :
    seen 32 0xF0710000 (start [(.r1, 0x0#32)] true) [.r0] =
      some ([0xFFFFFFFF#32], 0b1011) := by decide

theorem test_eors_const :
    seen 32 0xF091407F (start [(.r1, 0xFF00FF00#32)] false) [.r0] =
      some ([0xFF00#32], 0b0011) := by decide

theorem test_adds_const :
    seen 32 0xF511407F (start [(.r1, 0xFFFF0100#32)] false) [.r0] =
      some ([0x0#32], 0b0110) := by decide

theorem test_rsb_const :
    seen 32 0xF5C17080 (start [(.r1, 0x1#32)] false) [.r0] =
      some ([0xFF#32], 0b1101) := by decide

theorem test_rsbs_const :
    seen 32 0xF5D1407F (start [(.r1, 0xFF01#32)] true) [.r0] =
      some ([0xFFFFFFFF#32], 0b1000) := by decide

theorem test_tst_const :
    seen 32 0xF0104F00 (start [(.r0, 0x7FFFFFFF#32)] false) [.r0] =
      some ([0x7FFFFFFF#32], 0b0111) := by decide

theorem test_teq_const :
    seen 32 0xF0900F01 (start [(.r0, 0x1#32)] false) [.r0] =
      some ([0x1#32], 0b0101) := by decide

theorem test_cmn_const :
    seen 32 0xF1100F02 (start [(.r0, 0xFFFFFFFE#32)] false) [.r0] =
      some ([0xFFFFFFFE#32], 0b0110) := by decide

theorem test_cmn_const_zero :
    seen 32 0xF1100F00 (start [(.r0, 0x5#32)] true) [.r0] =
      some ([0x5#32], 0b0000) := by decide

theorem test_cmp_const :
    seen 32 0xF5B04F7F (start [(.r0, 0xFF00#32)] false) [.r0] =
      some ([0xFF00#32], 0b0110) := by decide

theorem test_mov_const :
    seen 32 0xF04F4000 (start [] false) [.r0] =
      some ([0x80000000#32], 0b1101) := by decide

theorem test_movs_const_pattern :
    seen 32 0xF05F20AB (start [] false) [.r0] =
      some ([0xAB00AB00#32], 0b1001) := by decide

theorem test_mvns_const :
    seen 32 0xF07F4000 (start [] false) [.r0] =
      some ([0x7FFFFFFF#32], 0b0011) := by decide

theorem test_mvn_const :
    seen 32 0xF06F0000 (start [] false) [.r0] =
      some ([0xFFFFFFFF#32], 0b1101) := by decide

theorem test_ands_shift :
    seen 32 0xEA110072 (start [(.r1, 0x80000000#32), (.r2, 0x1#32)] false) [.r0] =
      some ([0x80000000#32], 0b1011) := by decide

theorem test_bics_shift_rrx :
    seen 32 0xEA310031 (start [(.r1, 0xFFFFFFFF#32)] false) [.r0] =
      some ([0x80000000#32], 0b1011) := by decide

theorem test_orrs_shift :
    seen 32 0xEA510052 (start [(.r1, 0xF0#32), (.r2, 0x80000001#32)] false) [.r0] =
      some ([0x400000F0#32], 0b0011) := by decide

theorem test_orn_shift :
    seen 32 0xEA610002 (start [(.r1, 0xF#32), (.r2, 0xFFFFFFF0#32)] false) [.r0] =
      some ([0xF#32], 0b1101) := by decide

theorem test_eors_shift :
    seen 32 0xEA910001 (start [(.r1, 0xAAAAAAAA#32)] true) [.r0] =
      some ([0x0#32], 0b0111) := by decide

theorem test_adds_shift :
    seen 32 0xEB110042 (start [(.r1, 0x1#32), (.r2, 0xC0000000#32)] false) [.r0] =
      some ([0x80000001#32], 0b1000) := by decide

theorem test_adds_shift_plain :
    seen 32 0xEB100001 (start [(.r0, 0x7FFFFFFF#32), (.r1, 0x1#32)] true) [.r0] =
      some ([0x80000000#32], 0b1001) := by decide

theorem test_rsbs_shift :
    seen 32 0xEBD10052 (start [(.r1, 0x1#32), (.r2, 0x8#32)] false) [.r0] =
      some ([0x3#32], 0b0010) := by decide

theorem test_tst_shift :
    seen 32 0xEA100F52 (start [(.r0, 0x1#32), (.r2, 0x2#32)] true) [.r0] =
      some ([0x1#32], 0b0001) := by decide

theorem test_teq_shift :
    seen 32 0xEA900F52 (start [(.r0, 0x1#32), (.r2, 0x3#32)] false) [.r0] =
      some ([0x1#32], 0b0111) := by decide

theorem test_cmn_shift :
    seen 32 0xEB100F52 (start [(.r0, 0xFFFFFFFF#32), (.r2, 0x2#32)] false) [.r0] =
      some ([0xFFFFFFFF#32], 0b0110) := by decide

theorem test_cmp_shift :
    seen 32 0xEBB00F52 (start [(.r0, 0x1#32), (.r2, 0x4#32)] true) [.r0] =
      some ([0x1#32], 0b1000) := by decide

theorem test_mov_reg32 :
    seen 32 0xEA4F0001 (start [(.r1, 0x5#32)] false) [.r0] =
      some ([0x5#32], 0b1101) := by decide

/-! ## 32-bit shifts (95_test_vectors 1.5, 2.5; the others by hand) -/

theorem test_lsl_imm32 :
    seen 32 0xEA4F00C1 (start [(.r1, 0x80000015#32)] true) [.r0] =
      some ([0xA8#32], 0b1111) := by decide

theorem test_lsr_imm32 :
    seen 32 0xEA4F00D1 (start [(.r1, 0x80000015#32)] false) [.r0] =
      some ([0x10000002#32], 0b1101) := by decide

theorem test_asr_imm32 :
    seen 32 0xEA4F00E1 (start [(.r1, 0x80000015#32)] false) [.r0] =
      some ([0xF0000002#32], 0b1101) := by decide

theorem test_ror_imm32 :
    seen 32 0xEA4F00F1 (start [(.r1, 0x80000015#32)] false) [.r0] =
      some ([0xB0000002#32], 0b1101) := by decide

theorem test_rrx :
    seen 32 0xEA4F0031 (start [(.r1, 0x80000015#32)] true) [.r0] =
      some ([0xC000000A#32], 0b1111) := by decide

theorem test_rrxs :
    seen 32 0xEA5F0031 (start [(.r1, 0x1#32)] false) [.r0] =
      some ([0x0#32], 0b0111) := by decide

theorem test_mvn_shift :
    seen 32 0xEA6F0081 (start [(.r1, 0x1#32)] false) [.r0] =
      some ([0xFFFFFFFB#32], 0b1101) := by decide

theorem test_lsl_reg32 :
    seen 32 0xFA01F002 (start [(.r1, 0x1#32), (.r2, 0x104#32)] false) [.r0] =
      some ([0x10#32], 0b1101) := by decide

theorem test_lsr_reg32 :
    seen 32 0xFA21F002 (start [(.r1, 0x80000000#32), (.r2, 0x1F#32)] false) [.r0] =
      some ([0x1#32], 0b1101) := by decide

theorem test_asr_reg32 :
    seen 32 0xFA41F002 (start [(.r1, 0x80000000#32), (.r2, 0x120#32)] false) [.r0] =
      some ([0xFFFFFFFF#32], 0b1101) := by decide

theorem test_asrs_reg32_by_0 :
    seen 32 0xFA51F002 (start [(.r1, 0x80000000#32), (.r2, 0x100#32)] false) [.r0] =
      some ([0x80000000#32], 0b1001) := by decide

theorem test_ror_reg32 :
    seen 32 0xFA61F002 (start [(.r1, 0x12345678#32), (.r2, 0x8#32)] false) [.r0] =
      some ([0x78123456#32], 0b1101) := by decide

/-! ## Loads (95_test_vectors 2.6; the others by hand) -/

theorem test_ldr_reg16 :
    seen 16 0x5844 (start [(.r0, 0x20000000#32), (.r1, 0x4#32)] true) [.r4] =
      some ([0x88776655#32], 0b1111) := by decide

theorem test_ldr_imm16 :
    seen 16 0x6802 (start [(.r0, 0x20000000#32)] true) [.r2] =
      some ([0x44332211#32], 0b1111) := by decide

theorem test_ldr_sp16 :
    seen 16 0x9A01 (start [(.sp, 0x20000000#32)] true) [.r2] =
      some ([0x88776655#32], 0b1111) := by decide

theorem test_ldr_lit16 :
    seen 16 0x4802 (start [] true) [.r0] =
      some ([0xCAFEF00D#32], 0b1111) := by decide

theorem test_ldr_imm12_unaligned :
    seen 32 0xF8D02001 (start [(.r0, 0x20000000#32)] true) [.r2] =
      some ([0x55443322#32], 0b1111) := by decide

theorem test_ldr_neg8 :
    seen 32 0xF8502C04 (start [(.r0, 0x20000004#32)] true) [.r2] =
      some ([0x44332211#32], 0b1111) := by decide

theorem test_ldr_pre :
    seen 32 0xF8502F04 (start [(.r0, 0x20000000#32)] true) [.r2, .r0] =
      some ([0x88776655#32, 0x20000004#32], 0b1111) := by decide

theorem test_ldr_post :
    seen 32 0xF8502B04 (start [(.r0, 0x20000000#32)] true) [.r2, .r0] =
      some ([0x44332211#32, 0x20000004#32], 0b1111) := by decide

theorem test_ldrt :
    seen 32 0xF8502E04 (start [(.r0, 0x20000000#32)] true) [.r2] =
      some ([0x88776655#32], 0b1111) := by decide

theorem test_ldr_reg32 :
    seen 32 0xF8502021 (start [(.r0, 0x20000000#32), (.r1, 0x1#32)] true) [.r2] =
      some ([0x88776655#32], 0b1111) := by decide

theorem test_ldr_lit32 :
    seen 32 0xF8DF2008 (start [] true) [.r2] =
      some ([0xCAFEF00D#32], 0b1111) := by decide

theorem test_ldrh_reg16 :
    seen 16 0x5A44 (start [(.r0, 0x20000000#32), (.r1, 0x2#32)] true) [.r4] =
      some ([0x4433#32], 0b1111) := by decide

theorem test_ldrh_imm16 :
    seen 16 0x8843 (start [(.r0, 0x20000000#32)] true) [.r3] =
      some ([0x4433#32], 0b1111) := by decide

theorem test_ldrh_imm12_odd :
    seen 32 0xF8B03003 (start [(.r0, 0x20000000#32)] true) [.r3] =
      some ([0x5544#32], 0b1111) := by decide

theorem test_ldrh_neg8 :
    seen 32 0xF8303C04 (start [(.r0, 0x20000006#32)] true) [.r3] =
      some ([0x4433#32], 0b1111) := by decide

theorem test_ldrh_pre :
    seen 32 0xF8303F04 (start [(.r0, 0x20000000#32)] true) [.r3, .r0] =
      some ([0x6655#32, 0x20000004#32], 0b1111) := by decide

theorem test_ldrh_post :
    seen 32 0xF8303B08 (start [(.r0, 0x20000000#32)] true) [.r3, .r0] =
      some ([0x2211#32, 0x20000008#32], 0b1111) := by decide

theorem test_ldrht :
    seen 32 0xF8303E06 (start [(.r0, 0x20000000#32)] true) [.r3] =
      some ([0x8877#32], 0b1111) := by decide

theorem test_ldrh_reg32 :
    seen 32 0xF8303021 (start [(.r0, 0x20000002#32), (.r1, 0x1#32)] true) [.r3] =
      some ([0x8877#32], 0b1111) := by decide

theorem test_ldrh_lit32 :
    seen 32 0xF8BF3008 (start [] true) [.r3] =
      some ([0xF00D#32], 0b1111) := by decide

theorem test_ldrsh_reg16 :
    seen 16 0x5E44 (start [(.r0, 0x20000000#32), (.r1, 0x0#32)] true) [.r4] =
      some ([0x2211#32], 0b1111) := by decide

theorem test_ldrsh_imm12 :
    seen 32 0xF9B04006 (start [(.r0, 0x20000000#32)] true) [.r4] =
      some ([0xFFFF8877#32], 0b1111) := by decide

theorem test_ldrsh_neg8 :
    seen 32 0xF9303C04 (start [(.r0, 0x2000000A#32)] true) [.r3] =
      some ([0xFFFF8877#32], 0b1111) := by decide

theorem test_ldrsh_pre :
    seen 32 0xF9303F04 (start [(.r0, 0x20000002#32)] true) [.r3, .r0] =
      some ([0xFFFF8877#32, 0x20000006#32], 0b1111) := by decide

theorem test_ldrsh_post :
    seen 32 0xF9303B08 (start [(.r0, 0x20000006#32)] true) [.r3, .r0] =
      some ([0xFFFF8877#32, 0x2000000E#32], 0b1111) := by decide

theorem test_ldrsht :
    seen 32 0xF9304E05 (start [(.r0, 0x20000000#32)] true) [.r4] =
      some ([0x7766#32], 0b1111) := by decide

theorem test_ldrsh_reg32 :
    seen 32 0xF9303021 (start [(.r0, 0x20000002#32), (.r1, 0x1#32)] true) [.r3] =
      some ([0xFFFF8877#32], 0b1111) := by decide

theorem test_ldrsh_lit32 :
    seen 32 0xF9BF3008 (start [] true) [.r3] =
      some ([0xFFFFF00D#32], 0b1111) := by decide

/-! ## Stores (95_test_vectors 2.6; the others by hand): the eight bytes at 0x20000000 -/

theorem test_str_reg16 :
    bytesAfter 16 0x5044 (start [(.r0, 0x20000000#32), (.r1, 0x4#32), (.r4, 0xAABBCCDD#32)] true) [] =
      some ([0x11#8, 0x22#8, 0x33#8, 0x44#8, 0xDD#8, 0xCC#8, 0xBB#8, 0xAA#8], []) := by decide

theorem test_str_imm16_unaligned :
    bytesAfter 16 0x600A (start [(.r1, 0x20000001#32), (.r2, 0xAABBCCDD#32)] true) [] =
      some ([0x11#8, 0xDD#8, 0xCC#8, 0xBB#8, 0xAA#8, 0x66#8, 0x77#8, 0x88#8], []) := by decide

theorem test_str_sp16 :
    bytesAfter 16 0x9201 (start [(.sp, 0x20000000#32), (.r2, 0xAABBCCDD#32)] true) [] =
      some ([0x11#8, 0x22#8, 0x33#8, 0x44#8, 0xDD#8, 0xCC#8, 0xBB#8, 0xAA#8], []) := by decide

theorem test_str_imm12 :
    bytesAfter 32 0xF8C02001 (start [(.r0, 0x20000003#32), (.r2, 0xAABBCCDD#32)] true) [] =
      some ([0x11#8, 0x22#8, 0x33#8, 0x44#8, 0xDD#8, 0xCC#8, 0xBB#8, 0xAA#8], []) := by decide

theorem test_str_neg8 :
    bytesAfter 32 0xF8402C04 (start [(.r0, 0x20000004#32), (.r2, 0xAABBCCDD#32)] true) [] =
      some ([0xDD#8, 0xCC#8, 0xBB#8, 0xAA#8, 0x55#8, 0x66#8, 0x77#8, 0x88#8], []) := by decide

theorem test_str_pre :
    bytesAfter 32 0xF8402F04 (start [(.r0, 0x20000000#32), (.r2, 0xAABBCCDD#32)] true) [.r0] =
      some ([0x11#8, 0x22#8, 0x33#8, 0x44#8, 0xDD#8, 0xCC#8, 0xBB#8, 0xAA#8], [0x20000004#32]) := by decide

theorem test_str_post :
    bytesAfter 32 0xF8402B08 (start [(.r0, 0x20000000#32), (.r2, 0xAABBCCDD#32)] true) [.r0] =
      some ([0xDD#8, 0xCC#8, 0xBB#8, 0xAA#8, 0x55#8, 0x66#8, 0x77#8, 0x88#8], [0x20000008#32]) := by decide

theorem test_strt :
    bytesAfter 32 0xF8412E04 (start [(.r1, 0x20000000#32), (.r2, 0xAABBCCDD#32)] true) [] =
      some ([0x11#8, 0x22#8, 0x33#8, 0x44#8, 0xDD#8, 0xCC#8, 0xBB#8, 0xAA#8], []) := by decide

theorem test_str_reg32 :
    bytesAfter 32 0xF8402021 (start [(.r0, 0x20000000#32), (.r1, 0x1#32), (.r2, 0xAABBCCDD#32)] true) [] =
      some ([0x11#8, 0x22#8, 0x33#8, 0x44#8, 0xDD#8, 0xCC#8, 0xBB#8, 0xAA#8], []) := by decide

theorem test_strh_reg16 :
    bytesAfter 16 0x5244 (start [(.r0, 0x20000000#32), (.r1, 0x6#32), (.r4, 0xAABBCCDD#32)] true) [] =
      some ([0x11#8, 0x22#8, 0x33#8, 0x44#8, 0x55#8, 0x66#8, 0xDD#8, 0xCC#8], []) := by decide

theorem test_strh_imm16_odd :
    bytesAfter 16 0x800A (start [(.r1, 0x20000003#32), (.r2, 0xAABBCCDD#32)] true) [] =
      some ([0x11#8, 0x22#8, 0x33#8, 0xDD#8, 0xCC#8, 0x66#8, 0x77#8, 0x88#8], []) := by decide

theorem test_strh_imm12 :
    bytesAfter 32 0xF8A03001 (start [(.r0, 0x20000001#32), (.r3, 0xAABBCCDD#32)] true) [] =
      some ([0x11#8, 0x22#8, 0xDD#8, 0xCC#8, 0x55#8, 0x66#8, 0x77#8, 0x88#8], []) := by decide

theorem test_strh_neg8 :
    bytesAfter 32 0xF8203C04 (start [(.r0, 0x20000004#32), (.r3, 0xAABBCCDD#32)] true) [] =
      some ([0xDD#8, 0xCC#8, 0x33#8, 0x44#8, 0x55#8, 0x66#8, 0x77#8, 0x88#8], []) := by decide

theorem test_strh_pre :
    bytesAfter 32 0xF8203F04 (start [(.r0, 0x20000000#32), (.r3, 0xAABBCCDD#32)] true) [.r0] =
      some ([0x11#8, 0x22#8, 0x33#8, 0x44#8, 0xDD#8, 0xCC#8, 0x77#8, 0x88#8], [0x20000004#32]) := by decide

theorem test_strh_post :
    bytesAfter 32 0xF8203B08 (start [(.r0, 0x20000000#32), (.r3, 0xAABBCCDD#32)] true) [.r0] =
      some ([0xDD#8, 0xCC#8, 0x33#8, 0x44#8, 0x55#8, 0x66#8, 0x77#8, 0x88#8], [0x20000008#32]) := by decide

theorem test_strht :
    bytesAfter 32 0xF8212E02 (start [(.r1, 0x20000000#32), (.r2, 0xAABBCCDD#32)] true) [] =
      some ([0x11#8, 0x22#8, 0xDD#8, 0xCC#8, 0x55#8, 0x66#8, 0x77#8, 0x88#8], []) := by decide

theorem test_strh_reg32 :
    bytesAfter 32 0xF8203021 (start [(.r0, 0x20000000#32), (.r1, 0x1#32), (.r3, 0xAABBCCDD#32)] true) [] =
      some ([0x11#8, 0x22#8, 0x33#8, 0x44#8, 0xDD#8, 0xCC#8, 0x77#8, 0x88#8], []) := by decide

/-! ## Multiple loads (95_test_vectors 2.7; the others by hand) -/

theorem test_ldm16_writeback :
    seen 16 0xC806 (start [(.r0, 0x20000000#32)] true) [.r1, .r2, .r0] =
      some ([0x44332211#32, 0x88776655#32, 0x20000008#32], 0b1111) := by decide

theorem test_ldm16_base_in_list :
    seen 16 0xC803 (start [(.r0, 0x20000000#32)] true) [.r0, .r1] =
      some ([0x44332211#32, 0x88776655#32], 0b1111) := by decide

theorem test_ldm32 :
    seen 32 0xE8900006 (start [(.r0, 0x20000000#32)] true) [.r1, .r2, .r0] =
      some ([0x44332211#32, 0x88776655#32, 0x20000000#32], 0b1111) := by decide

theorem test_ldmdb_writeback :
    seen 32 0xE9300006 (start [(.r0, 0x20000008#32)] true) [.r1, .r2, .r0] =
      some ([0x44332211#32, 0x88776655#32, 0x20000000#32], 0b1111) := by decide

theorem test_pop16_one :
    seen 16 0xBC10 (start [(.sp, 0x20000000#32)] true) [.r4, .sp] =
      some ([0x44332211#32, 0x20000004#32], 0b1111) := by decide

theorem test_pop16_pc :
    seen 16 0xBD03 (start [(.sp, 0x20000100#32)] true) [.r0, .r1, .sp, .pc] =
      some ([0x1#32, 0x2#32, 0x2000010C#32, 0x8000104#32], 0b1111) := by decide

theorem test_pop_w :
    seen 32 0xE8BD8003 (start [(.sp, 0x20000100#32)] true) [.r0, .r1, .sp, .pc] =
      some ([0x1#32, 0x2#32, 0x2000010C#32, 0x8000104#32], 0b1111) := by decide

theorem test_pop_w_one :
    seen 32 0xF85D8B04 (start [(.sp, 0x20000004#32)] true) [.r8, .sp] =
      some ([0x88776655#32, 0x20000008#32], 0b1111) := by decide

theorem test_ldr_pc :
    seen 32 0xF8D0F000 (start [(.r0, 0x20000108#32)] true) [.pc] =
      some ([0x8000104#32], 0b1111) := by decide

/-! ## Branches (95_test_vectors 2.8; the others by hand). The instruction is at 0x08000002, and `pc` shows the address the run
goes on at plus 4, as the PC reads -/

theorem test_bcond16_not_taken :
    seen 16 0xD1FA (start [] true) [.pc] =
      some ([0x8000008#32], 0b1111) := by decide

theorem test_bcond16_taken :
    seen 16 0xD0FA (start [] true) [.pc] =
      some ([0x7FFFFFE#32], 0b1111) := by decide

theorem test_bcond32 :
    seen 32 0xF0808000 (start [] true) [.pc] =
      some ([0x800000A#32], 0b1111) := by decide

theorem test_b16_to_itself :
    seen 16 0xE7FE (start [] true) [.pc] =
      some ([0x8000006#32], 0b1111) := by decide

theorem test_b32 :
    seen 32 0xF000B800 (start [] true) [.pc] =
      some ([0x800000A#32], 0b1111) := by decide

theorem test_bl :
    seen 32 0xF000F801 (start [] true) [.lr, .pc] =
      some ([0x8000007#32, 0x800000C#32], 0b1111) := by decide

theorem test_cbz_taken :
    seen 16 0xB108 (start [(.r0, 0x0#32)] true) [.pc] =
      some ([0x800000C#32], 0b1111) := by decide

theorem test_cbz_not_taken :
    seen 16 0xB108 (start [(.r0, 0x5#32)] true) [.pc] =
      some ([0x8000008#32], 0b1111) := by decide

theorem test_cbnz_taken :
    seen 16 0xB900 (start [(.r0, 0x5#32)] true) [.pc] =
      some ([0x800000A#32], 0b1111) := by decide

theorem test_cbnz_not_taken :
    seen 16 0xB900 (start [(.r0, 0x0#32)] true) [.pc] =
      some ([0x8000008#32], 0b1111) := by decide

theorem test_bx :
    seen 16 0x4770 (start [(.lr, 0x8000105#32)] true) [.pc] =
      some ([0x8000108#32], 0b1111) := by decide

theorem test_blx :
    seen 16 0x4798 (start [(.r3, 0x8000201#32)] true) [.lr, .pc] =
      some ([0x8000005#32, 0x8000204#32], 0b1111) := by decide

theorem test_blx_lr :
    seen 16 0x47F0 (start [(.lr, 0x8000201#32)] true) [.lr, .pc] =
      some ([0x8000005#32, 0x8000204#32], 0b1111) := by decide

/-! ## IT blocks (95_test_vectors 2.8; 30_encoding R117, R118) -/

/-- `IT MI`, `ITT GT`, `ITE EQ`, `ITETE LT`. -/
theorem test_it :
    [0xBF48, 0xBFC4, 0xBF0C, 0xBFB5].map (fun w => (run 16 w (start [] true)).map fun t => (t.pc, t.itstate)) =
      [some (0x08000004#32, [.mi]), some (0x08000004#32, [.gt, .gt]), some (0x08000004#32, [.eq, .ne]),
        some (0x08000004#32, [.lt, .ge, .lt, .ge])] := by decide

/-- `start` with an IT block open. -/
def startIn (cs : List Cond) (rs : List (Reg × Word)) (c : Bool) : State := { start rs c with itstate := cs }

/-- `MOVEQ R0, #1` with Z = 1: the move happens, no flag is written, the block advances. -/
theorem test_movs_imm8_in_block :
    (run 16 0x2001 (startIn [.eq, .ne] [] true)).map (fun t => (t.reg .r0, flagBits t.flags, t.itstate)) =
      some (1#32, 0b1111, [.ne]) := by decide

/-- `MOVNE R0, #0` with Z = 1: nothing but the advance. -/
theorem test_failed_condition :
    (run 16 0x2000 (startIn [.ne] [(.r0, 5#32)] true)).map (fun t => (t.reg .r0, t.pc, t.itstate)) =
      some (5#32, 0x08000004#32, []) := by decide

/-- `CMPGT R2, R3` sets the flags inside a block. -/
theorem test_cmp_in_block :
    (run 16 0x429A (startIn [.eq, .eq] [(.r2, 2#32), (.r3, 9#32)] true)).map (fun t => (flagBits t.flags, t.itstate)) =
      some (0b1000, [.eq]) := by decide

/-! ## Special registers (95_test_vectors 2.9) -/

/-- `start` with the special registers of the vectors. -/
def startSpecial (r0 control : Word) : State :=
  { start [(.r0, r0)] true with
    primask := 1#32, faultmask := 1#32, basepri := 0x50#32, control := control, msp := 0x20002000#32,
    psp := 0x20001000#32 }

/-- PRIMASK, FAULTMASK, BASEPRI, CONTROL, MSP and PSP after an instruction. -/
def specialsAfter (w : Nat) (s : State) : Option (List Word) :=
  (run 32 w s).map fun t => [t.primask, t.faultmask, t.basepri, t.control, t.msp, t.psp]

theorem test_set_primask :
    specialsAfter 0xF3808810 (startSpecial 0xFFFFFFFE#32 0#32) =
      some [0#32, 1#32, 0x50#32, 0#32, 0x20002000#32, 0x20001000#32] := by decide

theorem test_set_faultmask :
    specialsAfter 0xF3808813 (startSpecial 2#32 0#32) =
      some [1#32, 0#32, 0x50#32, 0#32, 0x20002000#32, 0x20001000#32] := by decide

theorem test_set_basepri :
    specialsAfter 0xF3808811 (startSpecial 0x10F#32 0#32) =
      some [1#32, 1#32, 0#32, 0#32, 0x20002000#32, 0x20001000#32] := by decide

theorem test_set_control :
    specialsAfter 0xF3808814 (startSpecial 7#32 0#32) =
      some [1#32, 1#32, 0x50#32, 3#32, 0x20002000#32, 0x20001000#32] := by decide

theorem test_set_msp :
    specialsAfter 0xF3808808 (startSpecial 0x20003003#32 0#32) =
      some [1#32, 1#32, 0x50#32, 0#32, 0x20003000#32, 0x20001000#32] := by decide

theorem test_set_psp :
    specialsAfter 0xF3808809 (startSpecial 0x20003003#32 0#32) =
      some [1#32, 1#32, 0x50#32, 0#32, 0x20002000#32, 0x20003000#32] := by decide

/-- Unprivileged, every write is ignored. -/
theorem test_set_unprivileged :
    [0xF3808810, 0xF3808813, 0xF3808811, 0xF3808814, 0xF3808808, 0xF3808809].map
        (fun w => specialsAfter w (startSpecial 0#32 3#32)) =
      List.replicate 6 (some [1#32, 1#32, 0x50#32, 3#32, 0x20002000#32, 0x20001000#32]) := by decide

/-- `MRS R1` of PRIMASK, FAULTMASK, BASEPRI, CONTROL, MSP, PSP. -/
theorem test_get :
    [0xF3EF8110, 0xF3EF8113, 0xF3EF8111, 0xF3EF8114, 0xF3EF8108, 0xF3EF8109].map
        (fun w => (run 32 w (startSpecial 0#32 2#32)).map fun t => t.reg .r1) =
      [some 1#32, some 1#32, some 0x50#32, some 2#32, some 0x20002000#32, some 0x20001000#32] := by decide

/-- Unprivileged, every read but that of CONTROL gives 0. -/
theorem test_get_unprivileged :
    [0xF3EF8110, 0xF3EF8113, 0xF3EF8111, 0xF3EF8114, 0xF3EF8108, 0xF3EF8109].map
        (fun w => (run 32 w (startSpecial 0#32 3#32)).map fun t => t.reg .r1) =
      [some 0#32, some 0#32, some 0#32, some 3#32, some 0#32, some 0#32] := by decide

/-! ## Faults and refusals (95_test_vectors 2.4, 2.6, 2.7, 2.8) -/

/-- The fault an outcome is. -/
def faultOf (r : Result) : Option Fault :=
  match r with
  | .next _ => none
  | .fault f => some f
  | .refused _ => none

/-- The refusal an outcome is. -/
def refusalOf (r : Result) : Option Refusal :=
  match r with
  | .next _ => none
  | .fault _ => none
  | .refused q => some q

/-- `start` with UNALIGN_TRP set. -/
def startTrap (rs : List (Reg × Word)) : State := { start rs true with unalignTrp := true }

/-- `start` in a launch memory of which the SRAM area does not support unaligned accesses and 0x20000100 on is program text. -/
def startText (rs : List (Reg × Word)) : State :=
  { start rs true with
    cfg := { Config.reset with
      noUnaligned := [{ base := 0x20000000, size := 0x20000000 }], text := [{ base := 0x20000100, size := 0x100 }] } }

theorem test_fault_unaligned_trap :
    faultOf (exec (.ldrImm12 .r2 .r0 1#12) (startTrap [(.r0, 0x20000000#32)])) =
      some (.usageFault (.unaligned 0x20000001#32) 0x08000002#32) := by decide

theorem test_fault_unaligned_region :
    faultOf (exec (.strhImm16 .r2 .r1 0#5) (startText [(.r1, 0x20000003#32)])) =
      some (.usageFault (.unaligned 0x20000003#32) 0x08000002#32) := by decide

theorem test_fault_unaligned_ldm :
    faultOf (exec (.ldm16 .r0 6#8) (start [(.r0, 0x20000002#32)] true)) =
      some (.usageFault (.unaligned 0x20000002#32) 0x08000002#32) := by decide

theorem test_fault_bx :
    faultOf (exec (.bx .lr) (start [(.lr, 0x08000104#32)] true)) = some (.usageFault .invstate 0x08000002#32) := by decide

theorem test_fault_pop_pc :
    faultOf (exec (.pop16 true 1#8) (start [(.sp, 0x20000100#32)] true)) =
      some (.usageFault .invstate 0x08000002#32) := by decide

theorem test_stuck_load :
    faultOf (exec (.ldrImm16 .r2 .r0 0#5) (start [(.r0, 0x40000000#32)] true)) = some (.stuck .read 0x40000000) := by decide

theorem test_refused_text_store :
    refusalOf (exec (.strImm16 .r2 .r1 0#5) (startText [(.r1, 0x200000FC#32 + 4#32)])) =
      some (.textStore 0x20000100) := by decide

theorem test_refused_top :
    refusalOf (exec (.ldrImm12 .r2 .r0 1#12) (start [(.r0, 0xFFFFFFFC#32)] true)) = some .addressTop := by decide

theorem test_refused_place :
    [Instr.it .eq 8#4, .cbz .r0 0#6, .bCond16 .eq 0#8, .movsReg16 .r0 .r1].map
        (fun i => refusalOf (exec i (startIn [.eq] [] true))) =
      List.replicate 4 (some .itPlacement) ∧
    refusalOf (exec (.bx .lr) (startIn [.eq, .eq] [] true)) = some .itPlacement := by decide

/-- A failed condition computes no address: the unaligned load of 95_test_vectors 2.6 does nothing. -/
theorem test_failed_condition_no_fault :
    faultOf (exec (.ldrImm12 .r2 .r0 1#12) { startTrap [(.r0, 0x20000000#32)] with itstate := [.ne] }) = none := by decide

/-! ## Branches into an IT block (44_branch_and_conditional R244) -/

/-- At 0x08000100 `ITT EQ`, `MOVEQ R0, #1`, `MOVEQ R0, #0x80000000` in 32 bits; at 0x08000120 a `B.W` whose second halfword reads
as `ITT EQ`; at 0x20000110 the address 0x08000104 with bit[0] set. -/
def programMemory : Memory :=
  ((vectorMemory.writeBytes 0x08000100 [0x04#8, 0xBF#8, 0x01#8, 0x20#8, 0x4F#8, 0xF0#8, 0x00#8, 0x40#8]).writeBytes 0x08000120
    [0xFF#8, 0xF7#8, 0x04#8, 0xBF#8]).writeLe 0x20000110 4 0x08000105#32

/-- `start` with that program. -/
def startProgram (rs : List (Reg × Word)) : State := { start rs true with mem := programMemory }

/-- Both instructions of the block, by BX and by POP. -/
theorem test_branch_into_block :
    [0x08000103#32, 0x08000105#32].map (fun a => refusalOf (exec (.bx .lr) (startProgram [(.lr, a)]))) =
      [some (.branchIntoBlock 0x08000102#32), some (.branchIntoBlock 0x08000104#32)] ∧
    refusalOf (exec (.pop16 true 0#8) (startProgram [(.sp, 0x20000110#32)])) = some (.branchIntoBlock 0x08000104#32) := by
  decide

/-- The IT itself, the instruction after the block, and the instruction after the `B.W`, which stands in no block. -/
theorem test_branch_beside_block :
    [0x08000101#32, 0x08000109#32, 0x08000125#32].map
        (fun a => (run 16 0x4770 (startProgram [(.lr, a)])).map fun t => (t.pc, t.itstate)) =
      [some (0x08000100#32, []), some (0x08000108#32, []), some (0x08000124#32, [])] := by decide

/-! ## Steps -/

/-- The first two instructions of program P1 (95_test_vectors 3) at 0x08000000, by `step`: `MOVS R0, R1` then `IT MI`. -/
theorem test_step_program :
    (match step { start [(.r1, 0xFFFFFFFB#32)] true with
        pc := 0x08000000#32, mem := Memory.writeBytes [] 0x08000000 [0x08#8, 0x00#8, 0x48#8, 0xBF#8] } with
      | .next t =>
        match step t with
        | .next u => some (u.reg .r0, u.pc, u.itstate)
        | .fault _ => none
        | .refused _ => none
      | .fault _ => none
      | .refused _ => none) = some (0xFFFFFFFB#32, 0x08000004#32, [.mi]) := by decide

/-- A word placed at reset is fetched and run. -/
theorem test_step_placed :
    (match step (State.reset.withFetchWord 32 0xF04F4000) with
      | .next t => some (t.reg .r0, t.pc)
      | .fault _ => none
      | .refused _ => none) = some (0x80000000#32, 4#32) := by decide

/-! ## Hypotheses met

For every statement with hypotheses, a state and operands that meet them together; where a statement has several clauses, a
witness for each. `start` holds 11 22 33 44 55 66 77 88 at 0x20000000 and 1, 2, 0x08000101 at 0x20000100. -/

/-- DecodeOfEncode, ConditionsAfterCompare. -/
theorem witness_well_formed :
    (∀ i ∈ [Instr.lslsImm16 .r0 .r1 31#5, .it .al 1#4, .bCond16 .le 0x80#8, .popWOne .pc, .ldm32 true .r0 true false 2#13,
      .movConst true .lr 0xFFF#12, .bl 0xFFFFFF#24, .ldrPost .pc .sp false 4#8], i.wellFormed = true) ∧ Cond.le ≠ .al := by
  decide

/-- EncodeOfDecode, DecodeWidth: a 16-bit word next below the 32-bit ones, and 32-bit words. -/
theorem witness_decodes :
    decode [0xFF#8, 0xE7#8, 1#8] = .ok (.b16 0x7FF#11, [1#8]) ∧
    decode [0x90#8, 0xE8#8, 0x06#8, 0x00#8] = .ok (.ldm32 false .r0 false false 6#13, []) ∧
    decode [0x30#8, 0xF9#8, 0x05#8, 0x4E#8, 7#8] = .ok (.ldrsht .r4 .r0 5#8, [7#8]) := by
  refine ⟨rfl, rfl, rfl⟩

/-- `start` with the bytes of an instruction at an address and the PC there. -/
def startAt (a : Nat) (bs : List Byte) : State :=
  { start [] true with
    pc := BitVec.ofNat 32 a, mem := Memory.writeBytes [] a bs
    cfg := { Config.reset with
      regions := [{ range := { base := 0, size := 0x100000000 }, read := true, write := true, exec := true }] } }

/-- StepRunsDecoded, with the last bytes of the address space, and at the halt address. -/
theorem witness_step_runs :
    (∀ p ∈ [(startAt 0xFFFFFFFE [0x08#8, 0x00#8], 2), (startAt 0xFFFFFFFC [0x4F#8, 0xF0#8, 0x00#8, 0x40#8], 4)],
      p.1.pc ≠ p.1.cfg.haltAddr ∧ p.1.pc.toNat + p.2 ≤ addressCount ∧ p.1.cfg.admits .fetch p.1.pc.toNat p.2 = true) ∧
    (startAt 0x0FFFFFFE []).pc = (startAt 0x0FFFFFFE []).cfg.haltAddr := by decide

theorem witness_step_decodes :
    decode ((startAt 0xFFFFFFFE [0x08#8, 0x00#8]).mem.readBytes 0xFFFFFFFE 2) = .ok (.movsReg16 .r0 .r1, []) ∧
    decode ((startAt 0xFFFFFFFC [0x4F#8, 0xF0#8, 0x00#8, 0x40#8]).mem.readBytes 0xFFFFFFFC 4) =
      .ok (.movConst false .r0 0x400#12, []) := by
  refine ⟨rfl, rfl⟩

/-- PlacedWordRuns. -/
theorem witness_placed :
    State.reset.mem.wf = true ∧ State.reset.pc.toNat + 4 ≤ addressCount ∧
    decodeTableWord 16 0x0008 = some (.movsReg16 .r0 .r1) ∧
    decodeTableWord 32 0xE8BD8003 = some (.popW true false 3#13) := by decide

/-- The bytes do not decode. -/
def undecodable (bs : List Byte) : Bool :=
  match decode bs with
  | .ok _ => false
  | .error _ => true

/-- InvalidRefused: 0xBF00, which is one halfword, at the end of the address space and before bytes that admit no fetch; and
0xF3EF 8115. -/
theorem witness_invalid :
    (∀ s ∈ [startAt 0xFFFFFFFE [0x00#8, 0xBF#8], { start [] true with
          pc := 0x1FFFFFFE#32, mem := Memory.writeBytes [] 0x1FFFFFFE [0x00#8, 0xBF#8]
          cfg := { Config.reset with
            regions := [{ range := { base := 0x1FFFFFFE, size := 2 }, read := true, write := true, exec := true }] } }],
      s.pc ≠ s.cfg.haltAddr ∧ s.pc.toNat + 2 ≤ addressCount ∧ s.cfg.admits .fetch s.pc.toNat 2 = true ∧
        (halfAt s.mem s.pc.toNat).extractLsb' 11 5 ∉ [0b11101#5, 0b11110#5, 0b11111#5] ∧
        undecodable (s.mem.readBytes s.pc.toNat 2) = true) ∧
    (let s := startAt 0 [0xEF#8, 0xF3#8, 0x15#8, 0x81#8]
     s.pc ≠ s.cfg.haltAddr ∧ s.pc.toNat + 4 ≤ addressCount ∧ s.cfg.admits .fetch s.pc.toNat 4 = true ∧
        undecodable (s.mem.readBytes s.pc.toNat 4) = true) := by decide

/-- FetchRefused: each clause; the second halfword across the top, and in an area that does not admit it. -/
theorem witness_fetch :
    (let s := { start [] true with pc := 0xFFFFFFFF#32 }; s.pc ≠ s.cfg.haltAddr ∧ s.pc = 0xFFFFFFFF#32) ∧
    (let s := { start [] true with pc := 0xFFFFFFFE#32 }
     s.pc ≠ s.cfg.haltAddr ∧ s.pc.toNat + 2 ≤ addressCount ∧ s.cfg.admits .fetch s.pc.toNat 2 = false) ∧
    (let s := startAt 0xFFFFFFFE [0x4F#8, 0xF0#8]
     s.pc ≠ s.cfg.haltAddr ∧ s.pc.toNat + 2 ≤ addressCount ∧ s.cfg.admits .fetch s.pc.toNat 2 = true ∧
        (halfAt s.mem s.pc.toNat).extractLsb' 11 5 ∈ [0b11101#5, 0b11110#5, 0b11111#5] ∧ addressCount < s.pc.toNat + 4) ∧
    (let s := { start [] true with pc := 0x3FFFFFFE#32, mem := Memory.writeBytes [] 0x3FFFFFFE [0x4F#8, 0xF0#8] }
     s.pc ≠ s.cfg.haltAddr ∧ s.cfg.admits .fetch s.pc.toNat 2 = true ∧
        (halfAt s.mem s.pc.toNat).extractLsb' 11 5 ∈ [0b11101#5, 0b11110#5, 0b11111#5] ∧ s.pc.toNat + 4 ≤ addressCount ∧
        s.cfg.admits .fetch (s.pc.toNat + 2) 2 = false) := by decide

/-- StepKeepsInv: the step from reset. -/
theorem witness_inv : State.reset.Inv ∧ ∃ t, step State.reset = .next t :=
  ⟨by constructor <;> decide, _, rfl⟩

/-- UnprivilegedForGood: one step of an unprivileged thread. -/
theorem witness_unprivileged :
    (startSpecial 0#32 3#32).control.getLsbD 0 = true ∧
      ∃ t, Host.Core.run core 1 { startAt 0 [0x80#8, 0xF3#8, 0x14#8, 0x88#8] with control := 3#32 } = .next t :=
  ⟨by decide, _, rfl⟩

/-- SpecialRegisterWriters, RegisterFrame, FlagFrame, MemoryFrame, ProgramCounterFrame: a write of CONTROL, and an instruction for each kind of
flag effect and of store. -/
theorem witness_frames :
    (∃ t, exec (.setControl .r0) (startSpecial 2#32 0#32) = .next t) ∧
    (∃ t, exec (.addHigh .r0 .r1) (start [] true) = .next t) ∧ (∃ t, exec (.tstReg16 .r0 .r1) (start [] true) = .next t) ∧
    (∃ t, exec (.cmpReg16 .r0 .r1) (start [] true) = .next t) ∧
    (∃ t, exec (.strImm16 .r0 .r1 0#5) (start [(.r1, 0x20000000#32)] true) = .next t) :=
  ⟨⟨_, rfl⟩, ⟨_, rfl⟩, ⟨_, rfl⟩, ⟨_, rfl⟩, ⟨_, rfl⟩⟩

/-- FailedConditionDoesNothing: B<cond> outside a block, an instruction in a block, the last place that has room. -/
theorem witness_failed :
    (let s := start [] true
     (Instr.bCond16 .ne 0#8).takesCondition = true ∧ conditionPassed (Instr.bCond16 .ne 0#8).ownCond s = false ∧
        Room (width (Instr.bCond16 .ne 0#8)) s) ∧
    (let s := { startIn [.ne, .ne] [] true with pc := 0xFFFFFFFA#32 }
     (Instr.movConst true .r0 1#12).takesCondition = true ∧
        conditionPassed (Instr.movConst true .r0 1#12).ownCond s = false ∧ Room (width (Instr.movConst true .r0 1#12)) s) := by
  unfold Room; decide

/-- FaultsComeFrom: each fault (test_fault_unaligned_trap, test_fault_bx and test_stuck_load say it of `exec`). -/
theorem witness_faults :
    exec (.ldrImm12 .r2 .r0 1#12) (startTrap [(.r0, 0x20000000#32)]) =
      .fault (.usageFault (.unaligned 0x20000001#32) 0x08000002#32) ∧
    exec (.blx .r0) (start [] true) = .fault (.usageFault .invstate 0x08000002#32) ∧
    exec (.pop16 false 1#8) (start [(.sp, 0x40000000#32)] true) = .fault (.stuck .read 0x40000000) := by
  refine ⟨rfl, rfl, rfl⟩

/-- LogicalConstantResults, AddResults, ReverseSubtractResults, TestResults, CompareResults: the constant forms. -/
theorem witness_constants :
    ∀ i ∈ [Instr.andConst true .r0 .r1 0x47F#12, .bicConst false .lr .r1 0x1AB#12, .orrConst true .r0 .r1 0#12,
        .ornConst true .r0 .lr 0xFF#12, .eorConst false .r12 .r1 0x400#12, .movConst true .r0 0xFFF#12,
        .mvnConst true .r0 0x3FF#12, .addConst true .r0 .r1 0x2AB#12, .rsbConst true .r0 .r1 1#12, .tstConst .r0 0x400#12,
        .teqConst .r0 1#12, .cmnConst .r0 2#12, .cmpConst .lr 0#12],
      Ready i (start [] true) ∧ Room 4 (start [] true) := by
  unfold Ready Room; decide

/-- LogicalShiftedResults, AddResults, ReverseSubtractResults, TestResults, CompareResults: the register forms. -/
theorem witness_shifted :
    ∀ i ∈ [Instr.andShift true .r0 .r1 .r2 .ror 0#5, .bicShift true .r0 .r1 .r2 .lsr 0#5, .orrShift false .r0 .r1 .r2 .lsl 0#5,
        .ornShift true .r0 .r1 .r2 .asr 31#5, .eorShift true .r0 .r1 .lr .lsl 1#5, .mvnShift true .r0 .r1 .lsl 31#5,
        .movReg32 true .r0 .lr, .addShift true .r0 .r1 .r2 .lsl 1#5, .rsbShift true .r0 .r1 .r2 .lsl 1#5,
        .tstShift .r0 .r1 .ror 0#5, .teqShift .r0 .r1 .ror 1#5, .cmnShift .r0 .r1 .lsl 0#5, .cmpShift .r0 .r1 .lsl 0#5],
      Ready i (start [] true) ∧ Room 4 (start [] true) := by
  unfold Ready Room; decide

/-- Logical16Results, AddResults, ReverseSubtractResults, TestResults, CompareResults: the 16-bit forms, outside a block and
inside one. -/
theorem witness_data16 :
    (∀ i ∈ [Instr.andsReg16 .r0 .r1, .eorsReg16 .r0 .r1, .orrsReg16 .r0 .r1, .bicsReg16 .r0 .r1, .mvnsReg16 .r0 .r1,
        .movsImm8 .r0 0xFF#8, .movHigh .lr .r8, .addsReg16 .r0 .r1 .r2, .addsImm3 .r0 .r1 7#3, .addsImm8 .r0 0xFF#8,
        .addHigh .r8 .lr, .rsbsZero16 .r0 .r1, .tstReg16 .r0 .r1, .cmpImm8 .r0 0#8, .cmpReg16 .r0 .r1, .cmpHigh .r8 .r0,
        .cmnReg16 .r0 .r1],
      ∀ s ∈ [start [] true, { startIn [.eq, .ne] [] true with pc := 0xFFFFFFFC#32 }], Ready i s ∧ Room 2 s) ∧
    (start [] true).itstate = [] ∧ Room 2 (start [] true) := by
  unfold Ready Room; decide

/-- ShiftInstructionResults, by width. -/
theorem witness_shift_instructions :
    (∀ i ∈ [Instr.lslsImm16 .r0 .r1 1#5, .lsrsImm16 .r0 .r1 0#5, .asrsImm16 .r0 .r1 31#5, .lslsReg16 .r0 .r1,
        .lsrsReg16 .r0 .r1, .asrsReg16 .r0 .r1, .rorsReg16 .r0 .r1],
      Ready i (start [] true) ∧ Room 2 (start [] true) ∧ Ready i (startIn [.eq] [] true)) ∧
    (∀ i ∈ [Instr.lslImm32 true .r0 .r1 31#5, .lsrImm32 true .r0 .r1 0#5, .asrImm32 false .r0 .r1 0#5,
        .rorImm32 true .r0 .r1 1#5, .lslReg32 true .r0 .r1 .r2, .lsrReg32 true .r0 .r1 .r2, .asrReg32 true .r0 .r1 .r2,
        .rorReg32 false .lr .r1 .r2, .rrx true .r0 .r1],
      Ready i (start [] true) ∧ Room 4 (start [] true)) := by
  unfold Ready Room; decide

/-- ConditionTests: inside a block and outside one, B<cond> and another instruction. -/
theorem witness_condition_tests :
    (startIn [.mi, .pl] [] true).itstate = .mi :: [.pl] ∧ (start [] true).itstate = [] ∧
    (∀ c imm8, Instr.bx .lr ≠ .bCond16 c imm8) ∧ ∀ c imm20, Instr.bx .lr ≠ .bCond32 c imm20 :=
  ⟨rfl, rfl, fun _ _ h => Instr.noConfusion h, fun _ _ h => Instr.noConfusion h⟩

/-- ShiftArithmetic, ShiftTable, ShiftField, RotateRight, BankedStackPointer, ConstantFieldExact, CompareSubstitution: the ends
of the ranges. -/
theorem witness_ranges :
    (1 ≤ 1 ∧ 1 ≤ 32 ∧ 32 ≤ 32 ∧ 32 < 33 ∧ 33 ≤ 255) ∧ (3 ≤ 3 ∧ 3 ≤ 8 ∧ 8 ≤ 8) ∧
    (constOk 0xFFF#12 = true ∧ constOk 0x101#12 = true ∧ isOp2Const 0xAB00AB00#32 = true ∧ isOp2Const 0#32 = true ∧
      (0x400#12).extractLsb' 10 2 ≠ 0#2) ∧
    (decodeShift .ror 0#5 = (.rrx, 1) ∧ decodeShift .lsr 0#5 = (.lsr, 32)) ∧ (0#32 ≠ 0x80000000#32) := by decide

/-- ByteOrder and MemoryCanonical: the last word of the address space. -/
theorem witness_memory :
    vectorMemory.wf = true ∧ 0xFFFFFFFC + 4 ≤ addressCount ∧
    (vectorMemory.writeLe 0xFFFFFFFC 4 1#32).wf = true := by decide

/-- `start` for the loads and stores. -/
def startAccess : State := start [(.r0, 0x20000000#32), (.r1, 1#32), (.sp, 0x20000000#32)] true

/-- LoadWordResults: every form, with the address. -/
theorem witness_load_word :
    ∀ p ∈ [(Instr.ldrLit16 .r2 2#8, 2, Reg.r2, 0x0800000C#32), (.ldrReg16 .r2 .r0 .r1, 2, .r2, 0x20000001#32),
        (.ldrImm16 .r2 .r0 1#5, 2, .r2, 0x20000004#32), (.ldrSp16 .r2 1#8, 2, .r2, 0x20000004#32),
        (.ldrImm12 .r2 .r0 3#12, 4, .r2, 0x20000003#32), (.ldrNeg8 .sp .sp 0#8, 4, .sp, 0x20000000#32),
        (.ldrPre .r2 .sp true 4#8, 4, .r2, 0x20000004#32), (.ldrPost .r2 .r0 false 4#8, 4, .r2, 0x20000000#32),
        (.ldrt .r2 .r0 4#8, 4, .r2, 0x20000004#32), (.ldrReg32 .r2 .r0 .r1 2#2, 4, .r2, 0x20000004#32),
        (.ldrLit32 true .r2 8#12, 4, .r2, 0x0800000C#32), (.ldrLit32 false .r2 4#12, 4, .r2, 0x08000000#32)],
      Ready p.1 startAccess ∧ Room p.2.1 startAccess ∧ p.2.2.1 ≠ Reg.pc ∧ AlignOk 4 p.2.2.2 startAccess ∧
        LoadOk 4 p.2.2.2 startAccess := by
  unfold Ready Room AlignOk LoadOk; decide

/-- LoadHalfResults: every form, with the address. -/
theorem witness_load_half :
    ∀ p ∈ [(Instr.ldrhReg16 .r2 .r0 .r1, 2, 0x20000001#32), (.ldrhImm16 .r2 .r0 1#5, 2, 0x20000002#32),
        (.ldrhImm12 .r2 .r0 3#12, 4, 0x20000003#32), (.ldrhNeg8 .r2 .sp 0#8, 4, 0x20000000#32),
        (.ldrhPre .r2 .r0 true 4#8, 4, 0x20000004#32), (.ldrhPost .r2 .sp false 4#8, 4, 0x20000000#32),
        (.ldrht .r2 .r0 4#8, 4, 0x20000004#32), (.ldrhReg32 .r2 .r0 .r1 1#2, 4, 0x20000002#32),
        (.ldrhLit32 true .r2 8#12, 4, 0x0800000C#32), (.ldrshReg16 .r2 .r0 .r1, 2, 0x20000001#32),
        (.ldrshImm12 .r2 .r0 6#12, 4, 0x20000006#32), (.ldrshNeg8 .r2 .r0 0#8, 4, 0x20000000#32),
        (.ldrshPre .r2 .r0 true 4#8, 4, 0x20000004#32), (.ldrshPost .r2 .r0 false 4#8, 4, 0x20000000#32),
        (.ldrsht .r2 .r0 4#8, 4, 0x20000004#32), (.ldrshReg32 .r2 .r0 .r1 1#2, 4, 0x20000002#32),
        (.ldrshLit32 true .r2 8#12, 4, 0x0800000C#32)],
      Ready p.1 startAccess ∧ Room p.2.1 startAccess ∧ AlignOk 2 p.2.2 startAccess ∧ LoadOk 2 p.2.2 startAccess := by
  unfold Ready Room AlignOk LoadOk; decide

/-- StoreResults: every form, with its size and address. -/
theorem witness_store :
    startAccess.mem.wf = true ∧
    ∀ p ∈ [(Instr.strReg16 .r2 .r0 .r1, 2, 4, 0x20000001#32), (.strImm16 .r2 .r0 1#5, 2, 4, 0x20000004#32),
        (.strSp16 .r2 1#8, 2, 4, 0x20000004#32), (.strImm12 .sp .r0 3#12, 4, 4, 0x20000003#32),
        (.strNeg8 .r2 .r0 0#8, 4, 4, 0x20000000#32), (.strPre .r2 .sp true 4#8, 4, 4, 0x20000004#32),
        (.strPost .r2 .r0 false 4#8, 4, 4, 0x20000000#32), (.strt .r2 .r0 4#8, 4, 4, 0x20000004#32),
        (.strReg32 .r2 .r0 .r1 2#2, 4, 4, 0x20000004#32), (.strhReg16 .r2 .r0 .r1, 2, 2, 0x20000001#32),
        (.strhImm16 .r2 .r0 1#5, 2, 2, 0x20000002#32), (.strhImm12 .r2 .r0 3#12, 4, 2, 0x20000003#32),
        (.strhNeg8 .r2 .r0 0#8, 4, 2, 0x20000000#32), (.strhPre .r2 .r0 true 4#8, 4, 2, 0x20000004#32),
        (.strhPost .r2 .r0 false 4#8, 4, 2, 0x20000000#32), (.strht .r2 .r0 4#8, 4, 2, 0x20000004#32),
        (.strhReg32 .r2 .r0 .r1 1#2, 4, 2, 0x20000002#32)],
      Ready p.1 startAccess ∧ Room p.2.1 startAccess ∧ AlignOk p.2.2.1 p.2.2.2 startAccess ∧
        StoreOk p.2.2.1 p.2.2.2 startAccess := by
  unfold Ready Room AlignOk StoreOk; decide

/-- LoadPcResults: every form, with the address and bit[0] of the word there, both values of it. -/
theorem witness_load_pc :
    let s := start [(.r0, 0x20000108#32), (.r1, 0#32)] true
    ∀ p ∈ [(Instr.ldrImm12 .pc .r0 0#12, 0x20000108#32, true), (.ldrNeg8 .pc .r0 4#8, 0x20000104#32, false),
        (.ldrPre .pc .r0 false 4#8, 0x20000104#32, false), (.ldrPost .pc .r0 true 4#8, 0x20000108#32, true),
        (.ldrReg32 .pc .r0 .r1 3#2, 0x20000108#32, true), (.ldrLit32 true .pc 8#12, 0x0800000C#32, true)],
      Ready p.1 s ∧ s.itstate.length ≤ 1 ∧ p.2.1.toNat % 4 = 0 ∧ LoadOk 4 p.2.1 s ∧
        (wordAt s.mem p.2.1.toNat).getLsbD 0 = p.2.2 ∧
        ¬InItBlock s.mem s.cfg (wordAt s.mem p.2.1.toNat &&& 0xFFFFFFFE#32) := by
  unfold Ready LoadOk; simp only [← inItBlock_iff]; decide

/-- LoadMultipleResults: the 16-bit form; the 32-bit forms with and without PC, LR and writeback. -/
theorem witness_load_multiple :
    (let s := start [(.r0, 0x20000100#32)] true
     Ready (.ldm16 .r0 6#8) s ∧ Room 2 s ∧ WordsOk (rank 6#8 8) (s.reg .r0) s ∧ (6#8).getLsbD LowReg.r0.num = false ∧
        Ready (.ldm16 .r0 0xFF#8) s ∧ WordsOk (rank 0xFF#8 8) (s.reg .r0) s) ∧
    (∀ q ∈ [(Instr.ldm32 true .r0 true false 6#13, 0x20000100#32, 3), (.ldm32 false .r0 false true 2#13, 0x20000100#32, 2),
        (.ldmdb true .r0 true false 6#13, 0x2000010C#32, 3), (.ldmdb true .r0 false true 0x1000#13, 0x20000108#32, 2)],
      Ready q.1 (start [(.r0, q.2.1)] true) ∧ Room 4 (start [(.r0, q.2.1)] true) ∧
        WordsOk q.2.2 0x20000100#32 (start [(.r0, q.2.1)] true)) ∧
    rank 6#13 13 = 2 ∧ (start [] true).itstate.length ≤ 1 ∧
      (wordAt (start [] true).mem (0x20000100 + 4 * 2)).getLsbD 0 = true ∧
      ¬InItBlock (start [] true).mem (start [] true).cfg
        (wordAt (start [] true).mem (0x20000100 + 4 * 2) &&& 0xFFFFFFFE#32) := by
  unfold Ready Room WordsOk; simp only [← inItBlock_iff]; decide

/-- PopResults: the three encodings, with and without PC. -/
theorem witness_pop :
    (let s := start [(.sp, 0x20000100#32)] true
     Room 4 s ∧ Room 2 s ∧ s.itstate.length ≤ 1 ∧
      Ready (.pop16 true 3#8) s ∧ WordsOk (rank 3#8 8 + 1) (s.reg .sp) s ∧
      Ready (.pop16 false 1#8) s ∧ WordsOk (rank 1#8 8 + 0) (s.reg .sp) s ∧
      Ready (.popW true false 3#13) s ∧ WordsOk (rank 3#13 13 + 0 + 1) (s.reg .sp) s ∧
      Ready (.popW false true 1#13) s ∧ WordsOk (rank 1#13 13 + 1 + 0) (s.reg .sp) s ∧
      (wordAt s.mem ((s.reg .sp).toNat + 4 * rank 3#8 8)).getLsbD 0 = true ∧
      ¬InItBlock s.mem s.cfg (wordAt s.mem ((s.reg .sp).toNat + 4 * rank 3#8 8) &&& 0xFFFFFFFE#32) ∧
      Ready (.popWOne .r8) s ∧ WordsOk 1 (s.reg .sp) s) ∧
    (let s := start [(.sp, 0x20000108#32)] true
     Ready (.popWOne .pc) s ∧ WordsOk 1 (s.reg .sp) s ∧ s.itstate.length ≤ 1 ∧
        (wordAt s.mem (s.reg .sp).toNat).getLsbD 0 = true ∧
        ¬InItBlock s.mem s.cfg (wordAt s.mem (s.reg .sp).toNat &&& 0xFFFFFFFE#32)) := by
  unfold Ready Room WordsOk; simp only [← inItBlock_iff]; decide

/-- UnalignedFaults: the trap, the region without support, a load of the PC; LDM in its encodings. -/
theorem witness_unaligned :
    (let s := startTrap [(.r0, 0x20000001#32)]
     (∀ p ∈ [(Instr.ldrImm12 .r2 .r0 0#12, Access.read, 4), (.strhImm12 .r2 .r0 0#12, .write, 2),
          (.ldrImm12 .pc .r0 0#12, .read, 4)],
        p.1.accesses s = some (p.2.1, 0x20000001#32, p.2.2) ∧ Ready p.1 s) ∧
      s.itstate.length ≤ 1 ∧ 0x20000001 % 4 ≠ 0 ∧ 0x20000001 % 2 ≠ 0 ∧ s.unalignTrp = true) ∧
    (let s := startText [(.r0, 0x20000003#32)]
     (Instr.ldrhImm16 .r2 .r0 0#5).accesses s = some (.read, 0x20000003#32, 2) ∧ Ready (.ldrhImm16 .r2 .r0 0#5) s ∧
        s.cfg.supportsUnaligned 0x20000003 = false) ∧
    (let s := start [(.r0, 0x20000002#32)] true
     Ready (.ldm16 .r0 6#8) s ∧ Ready (.ldm32 true .r0 true false 6#13) s ∧ Ready (.ldmdb true .r0 false true 6#13) s ∧
        s.itstate.length ≤ 1 ∧ (s.reg .r0).toNat % 4 ≠ 0 ∧ (s.reg .r0 - BitVec.ofNat 32 (4 * 3)).toNat % 4 ≠ 0) := by
  unfold Ready; decide

/-- MultipleLoadStops: across the top at the second word, a second word that is not admitted, a word for the PC with bit[0]
= 0. -/
theorem witness_multiple_stops :
    (let s := startAt 0xFFFFFFF0 []
     let i : Instr := .ldm32 false .r0 false false 6#13
     let u := s.setReg .r0 0xFFFFFFFC#32
     i.multiple u = some (0xFFFFFFFC#32, 2) ∧ Ready i u ∧ WordsOk 1 0xFFFFFFFC#32 u ∧
      addressCount < (0xFFFFFFFC#32).toNat + 4 * 1 + 4) ∧
    (let s := start [(.sp, 0x3FFFFFFC#32)] true
     (Instr.pop16 true 1#8).multiple s = some (0x3FFFFFFC#32, 2) ∧ Ready (.pop16 true 1#8) s ∧ s.itstate.length ≤ 1 ∧
      WordsOk 1 0x3FFFFFFC#32 s ∧ s.cfg.admits .read ((0x3FFFFFFC#32).toNat + 4 * 1) 4 = false) ∧
    (let s := start [(.sp, 0x20000100#32)] true
     (Instr.popW true false 1#13).loadsPc = true ∧ (Instr.pop16 true 1#8).loadsPc = true ∧
      (Instr.pop16 true 1#8).multiple s = some (0x20000100#32, 2) ∧ Ready (.pop16 true 1#8) s ∧ WordsOk 2 0x20000100#32 s ∧
      (wordAt s.mem ((0x20000100#32).toNat + 4 * (2 - 1))).getLsbD 0 = false) := by
  unfold Ready WordsOk; decide

/-- UnadmittedAccess: across the top, into the text, and a device area. -/
theorem witness_unadmitted :
    (let s := start [(.r0, 0xFFFFFFFD#32)] true
     (Instr.ldrImm16 .r2 .r0 0#5).accesses s = some (.read, 0xFFFFFFFD#32, 4) ∧ Ready (.ldrImm16 .r2 .r0 0#5) s ∧
        AlignOk 4 0xFFFFFFFD#32 s ∧ addressCount < 0xFFFFFFFD + 4) ∧
    (let s := startText [(.r0, 0x200000FC#32), (.r1, 4#32)]
     (Instr.strReg16 .r2 .r0 .r1).accesses s = some (.write, 0x20000100#32, 4) ∧ Ready (.strReg16 .r2 .r0 .r1) s ∧
        AlignOk 4 0x20000100#32 s ∧ 0x20000100 + 4 ≤ addressCount ∧ s.cfg.touchesText 0x20000100 4 = true) ∧
    (let s := start [(.r0, 0xFFFFFFFC#32)] true
     (∀ p ∈ [(Instr.strImm16 .r2 .r0 0#5, Access.write), (.ldrImm12 .pc .r0 0#12, .read)],
        p.1.accesses s = some (p.2, 0xFFFFFFFC#32, 4) ∧ Ready p.1 s ∧ AlignOk 4 0xFFFFFFFC#32 s ∧
          s.cfg.admits p.2 0xFFFFFFFC 4 = false) ∧
        s.itstate.length ≤ 1 ∧ 0xFFFFFFFC % 4 = 0 ∧ 0xFFFFFFFC + 4 ≤ addressCount ∧
        s.cfg.touchesText 0xFFFFFFFC 4 = false) := by
  unfold Ready AlignOk; decide

/-- Refusals: each clause. -/
theorem witness_refusals :
    (conditionPassed (Instr.bx .pc).ownCond (start [] true) = true ∧ (Instr.bx .pc).wellFormed = false ∧
      (Instr.it .eq 0#4).takesCondition = false ∧ (Instr.it .eq 0#4).wellFormed = false) ∧
    ((startIn [.eq] [] true).itstate ≠ [] ∧
      ∀ i ∈ [Instr.cbz .r0 0#6, .cbnz .r0 0#6, .it .eq 8#4], i.wellFormed = true) ∧
    (∀ i ∈ [Instr.movsReg16 .r0 .r1, .bCond16 .eq 0#8, .bCond32 .eq 0#20], Ready i (startIn [.eq] [] true)) ∧
    (2 ≤ (startIn [.eq, .eq] [] true).itstate.length ∧
      (∀ i ∈ [Instr.bx .lr, .blx .r3, .b16 0#11, .b32 0#24, .bl 0#24], Ready i (startIn [.eq, .eq] [] true)) ∧
      ∀ i ∈ [Instr.pop16 true 0#8, .ldrImm12 .pc .r0 0#12, .popWOne .pc, .ldm32 false .r0 true false 1#13],
        i.loadsPc = true ∧ Ready i (startIn [.eq, .eq] [] true)) ∧
    (let s := { startIn [.ne] [] true with pc := 0xFFFFFFFE#32 }
     (Instr.movsImm8 .r0 0#8).takesCondition = true ∧ conditionPassed (Instr.movsImm8 .r0 0#8).ownCond s = false ∧
        ¬Room (width (Instr.movsImm8 .r0 0#8)) s) ∧
    (let s := start [(.r0, 0x20000001#32)] true
     (Instr.ldrImm12 .pc .r0 0#12).loadsPc = true ∧
      (Instr.ldrImm12 .pc .r0 0#12).accesses s = some (.read, 0x20000001#32, 4) ∧ Ready (.ldrImm12 .pc .r0 0#12) s ∧
      s.itstate.length ≤ 1 ∧ AlignOk 4 0x20000001#32 s) := by
  unfold Ready Room AlignOk; decide

/-- BranchIntoBlockRefused: each clause, with the target in the block at 0x08000102. -/
theorem witness_into_block :
    (let s := startProgram []
     (∀ i ∈ [Instr.bCond16 .eq 0x7E#8, .bCond32 .cs 0x7E#20, .b16 0x7E#11, .b32 0x7E#24, .bl 0x7E#24], Ready i s) ∧
      s.itstate.length ≤ 0 ∧ InItBlock s.mem s.cfg (s.pc + 4#32 + (0x7E#24 ++ 0#1 : BitVec 25).signExtend 32)) ∧
    (let s := { startProgram [(.r1, 1#32)] with pc := 0x080000F8#32 }
     s.itstate = [] ∧ InItBlock s.mem s.cfg (s.pc + 4#32 + 2#32 * (3#6).setWidth 32) ∧ s.reg LowReg.r0.reg = 0#32 ∧
      s.reg LowReg.r1.reg ≠ 0#32) ∧
    (let s := { startProgram [(.lr, 0x08000103#32)] with itstate := [.eq] }
     s.itstate.length ≤ 1 ∧ (s.reg .lr).getLsbD 0 = true ∧ InItBlock s.mem s.cfg (s.reg .lr &&& 0xFFFFFFFE#32) ∧
      ∀ i ∈ [Instr.bx .lr, .blx .lr], Ready i s) ∧
    (let s := startProgram [(.r0, 0x20000110#32), (.sp, 0x20000110#32)]
     let pcWord := wordAt s.mem 0x20000110
     (Instr.ldrImm12 .pc .r0 0#12).loadsPc = true ∧
      (Instr.ldrImm12 .pc .r0 0#12).accesses s = some (.read, 0x20000110#32, 4) ∧ Ready (.ldrImm12 .pc .r0 0#12) s ∧
      s.itstate.length ≤ 1 ∧ 0x20000110 % 4 = 0 ∧ LoadOk 4 0x20000110#32 s ∧ pcWord.getLsbD 0 = true ∧
      InItBlock s.mem s.cfg (pcWord &&& 0xFFFFFFFE#32) ∧
      (Instr.pop16 true 0#8).multiple s = some (0x20000110#32, 1) ∧ Ready (.pop16 true 0#8) s ∧
      (Instr.pop16 true 0#8).loadsPc = true ∧ WordsOk 1 0x20000110#32 s) ∧
    exec (.bx .lr) (startProgram [(.lr, 0x08000103#32)]) = .refused (.branchIntoBlock 0x08000102#32) := by
  unfold Ready LoadOk WordsOk
  simp only [← inItBlock_iff]
  refine ⟨by decide, by decide, by decide, by decide, rfl⟩

/-- BranchResults: outside a block and last in one, to targets in no block, one of them the IT that opens a block. -/
theorem witness_branch :
    (let s := startProgram []
     (∀ p ∈ [(Instr.bCond16 .eq 0x7D#8, 0x08000100#32), (.bCond32 .cs 0x81#20, 0x08000108#32),
          (.b16 0x400#11, 0x07FFF806#32), (.b32 0x800000#24, 0x07000006#32), (.bl 0x7FFFFF#24, 0x09000004#32)],
        Ready p.1 s ∧ ¬InItBlock s.mem s.cfg p.2) ∧ s.itstate.length ≤ 0 ∧
      s.pc + 4#32 + (0x7D#8 ++ 0#1 : BitVec 9).signExtend 32 = 0x08000100#32 ∧
      s.pc + 4#32 + (0x81#20 ++ 0#1 : BitVec 21).signExtend 32 = 0x08000108#32 ∧
      s.pc + 4#32 + (0x400#11 ++ 0#1 : BitVec 12).signExtend 32 = 0x07FFF806#32 ∧
      s.pc + 4#32 + (0x800000#24 ++ 0#1 : BitVec 25).signExtend 32 = 0x07000006#32 ∧
      s.pc + 4#32 + (0x7FFFFF#24 ++ 0#1 : BitVec 25).signExtend 32 = 0x09000004#32) ∧
    (let s := startIn [.eq] [] true
     (∀ i ∈ [Instr.b16 0#11, .b32 0#24, .bl 0#24], Ready i s) ∧ s.itstate.length ≤ 1 ∧
      ¬InItBlock s.mem s.cfg (s.pc + 4#32 + (0#24 ++ 0#1 : BitVec 25).signExtend 32)) := by
  unfold Ready; simp only [← inItBlock_iff]; decide

/-- CompareBranchResults, ItOpensBlock: taken and not taken; the letters of ITETE and of IT AL. -/
theorem witness_compare_branch :
    (start [] true).itstate = [] ∧ Room 2 (start [] true) ∧ (start [] true).reg LowReg.r0.reg = 0#32 ∧
    ¬InItBlock (start [] true).mem (start [] true).cfg ((start [] true).pc + 4#32 + 2#32 * (0x3F#6).setWidth 32) ∧
    (start [(.r0, 1#32)] true).reg LowReg.r0.reg ≠ 0#32 ∧ [false, true, false].length ≤ 3 ∧ Cond.lt ≠ .al ∧
    (∀ l ∈ [true, true, true], l = true) ∧ itOk .al 1#4 = true ∧ itOk .lt 0b0101#4 = true := by
  unfold Room; simp only [← inItBlock_iff]; decide

/-- RegisterBranchResults: bit[0] of the register 1 and 0, last in a block. -/
theorem witness_register_branch :
    let s := startIn [.eq] [(.lr, 0x08000105#32), (.r3, 0x08000104#32)] true
    s.itstate.length ≤ 1 ∧ Ready (.bx .lr) s ∧ Ready (.blx .lr) s ∧ (s.reg .lr).getLsbD 0 = true ∧
      ¬InItBlock s.mem s.cfg (s.reg .lr &&& 0xFFFFFFFE#32) ∧ Ready (.bx .r3) s ∧
      Ready (.blx .r3) s ∧ (s.reg .r3).getLsbD 0 = false := by
  unfold Ready; simp only [← inItBlock_iff]; decide

/-- ReadFunctionResults, WriteFunctionResults: privileged and not. -/
theorem witness_special :
    ∀ i ∈ [Instr.getPrimask .r0, .getFaultmask .r0, .getBasepri .r0, .getControl .r0, .getMsp .lr, .getPsp .r12,
        .setPrimask .r0, .setFaultmask .r0, .setBasepri .r0, .setControl .r0, .setMsp .lr, .setPsp .r12],
      ∀ s ∈ [startSpecial 0#32 0#32, startSpecial 0#32 3#32], Ready i s ∧ Room 4 s := by
  unfold Ready Room; decide

end Sys2Proof.Tests
end

section
/-! SUPPORT. What a fetch reads, and the instruction it gives (20_memory R68, R69; 30_encoding R93). -/

namespace Sys2Proof

/-- An access is admitted where both of its parts are (20_memory R72). -/
theorem Config.admits_add (c : Config) (acc : Access) (a k n : Nat) :
    c.admits acc a (k + n) = (c.admits acc a k && c.admits acc (a + k) n) := by
  simp [Config.admits, List.range_add, List.all_map, Function.comp_def, Nat.add_assoc]

end Sys2Proof

namespace Sys2Proof.Machine

/-! ## Consecutive bytes -/

@[simp] theorem Memory.readBytes_length (m : Memory) (a n : Nat) : (m.readBytes a n).length = n := by
  induction n generalizing a with
  | zero => rfl
  | succ n ih => simp [Memory.readBytes, ih]

theorem Memory.readBytes_add (m : Memory) (a k n : Nat) :
    m.readBytes a (k + n) = m.readBytes a k ++ m.readBytes (a + k) n := by
  induction k generalizing a with
  | zero => simp [Memory.readBytes]
  | succ k ih =>
    rw [Nat.succ_add, Memory.readBytes, ih, Memory.readBytes, List.cons_append, Nat.add_assoc a 1 k, Nat.add_comm 1 k]

/-! ## Fetching -/

/-- A fetch goes through inside the address space where the launch memory admits it. -/
theorem fetchAt_eq_next {a n : Nat} {s : State} {bs : List Byte} :
    fetchAt a n s = .next bs ↔ a + n ≤ addressCount ∧ s.cfg.admits .fetch a n = true ∧ bs = s.mem.readBytes a n := by
  rw [eq_comm (a := bs)]
  unfold fetchAt
  repeat' split
  all_goals simp_all

/-- A fetch of `k + n` bytes is one of `k` bytes and one of the `n` after them. -/
theorem fetchAt_add_eq_next {a k n : Nat} {s : State} {bs : List Byte} (h : fetchAt a (k + n) s = .next bs) :
    ∃ first second, fetchAt a k s = .next first ∧ fetchAt (a + k) n s = .next second ∧ bs = first ++ second := by
  obtain ⟨htop, hadm, rfl⟩ := fetchAt_eq_next.1 h
  rw [Config.admits_add, Bool.and_eq_true] at hadm
  exact ⟨s.mem.readBytes a k, s.mem.readBytes (a + k) n, fetchAt_eq_next.2 ⟨by omega, hadm.1, rfl⟩,
    fetchAt_eq_next.2 ⟨by omega, hadm.2, rfl⟩, s.mem.readBytes_add a k n⟩

theorem fetchAt_length {a n : Nat} {s : State} {bs : List Byte} (h : fetchAt a n s = .next bs) : bs.length = n := by
  obtain ⟨-, -, rfl⟩ := fetchAt_eq_next.1 h
  exact s.mem.readBytes_length a n

/-- A first halfword that begins no 32-bit instruction is fetched alone (30_encoding R93). -/
theorem fetchBytes_of_narrow {s : State} {b0 b1 : Byte} (h : fetchAt s.pc.toNat 2 s = .next [b0, b1])
    (hw : is32 (halfOfBytes b0 b1) = false) : fetchBytes s = .next [b0, b1] := by
  simp [fetchBytes, h, hw]

/-- A first halfword that begins a 32-bit instruction is fetched with the second (30_encoding R93). -/
theorem fetchBytes_of_wide {s : State} {b0 b1 b2 b3 : Byte} (h : fetchAt s.pc.toNat 4 s = .next [b0, b1, b2, b3])
    (hw : is32 (halfOfBytes b0 b1) = true) : fetchBytes s = .next [b0, b1, b2, b3] := by
  obtain ⟨first, second, h1, h2, hbs⟩ := fetchAt_add_eq_next (k := 2) (n := 2) h
  obtain ⟨rfl, rfl⟩ := List.append_inj (s₁ := [b0, b1]) hbs (by simp [fetchAt_length h1])
  simp [fetchBytes, h1, h2, hw]

/-! ## Decoding what is fetched -/

/-- Bytes that are one instruction and nothing more: two, or four where the first halfword begins a 32-bit instruction. -/
theorem decode_eq_ok_nil {bs : List Byte} {i : Instr} (h : decode bs = .ok (i, [])) :
    (∃ b0 b1, bs = [b0, b1] ∧ is32 (halfOfBytes b0 b1) = false) ∨
      ∃ b0 b1 b2 b3, bs = [b0, b1, b2, b3] ∧ is32 (halfOfBytes b0 b1) = true := by
  unfold decode at h
  split at h
  next b0 b1 rest =>
    dsimp only at h
    split at h
    next hw =>
      split at h
      next b2 b3 rest' =>
        split at h
        · injection h with h; injection h with _ hrest; subst hrest
          exact .inr ⟨b0, b1, b2, b3, rfl, hw⟩
        · cases h
      next => cases h
    next hw =>
      split at h
      · injection h with h; injection h with _ hrest; subst hrest
        exact .inl ⟨b0, b1, rfl, by simpa using hw⟩
      · cases h
  next => cases h

/-- Bytes at the PC that can be fetched and are one instruction are the bytes the step fetches. -/
theorem fetchBytes_of_decode {s : State} {n : Nat} {bs : List Byte} {i : Instr} (h : fetchAt s.pc.toNat n s = .next bs)
    (hd : decode bs = .ok (i, [])) : fetchBytes s = .next bs := by
  obtain ⟨b0, b1, rfl, hw⟩ | ⟨b0, b1, b2, b3, rfl, hw⟩ := decode_eq_ok_nil hd
  · obtain rfl : 2 = n := fetchAt_length h
    exact fetchBytes_of_narrow h hw
  · obtain rfl : 4 = n := fetchAt_length h
    exact fetchBytes_of_wide h hw

/-- The instruction at the PC is the one the fetched bytes decode to. -/
theorem fetchInstr_of_decode {s : State} {bs rest : List Byte} {i : Instr} (h : fetchBytes s = .next bs)
    (hd : decode bs = .ok (i, rest)) : fetchInstr s = .next i := by
  simp [fetchInstr, h, hd]

/-! ## The step -/

theorem halted_iff {s : State} : halted s = true ↔ s.pc = s.cfg.haltAddr := by simp [halted]

/-- At the halt address the final state stays. -/
theorem step_of_halted {s : State} (h : s.pc = s.cfg.haltAddr) : step s = .next s := if_pos (halted_iff.2 h)

/-- Elsewhere a step is the fetch and the instruction it gives. -/
theorem step_of_running {s : State} (h : s.pc ≠ s.cfg.haltAddr) : step s = andThen (fetchInstr s) fun i => exec i s :=
  if_neg (mt halted_iff.1 h)

/-- Settles O5: the bytes that decode to one instruction are two or four as their first halfword says, so they are the ones
the step fetches. -/
theorem stepRunsDecoded : Obligations.StepRunsDecoded := by
  refine ⟨fun s i hrun htop hadm hdec => ?_, fun s hhalt => step_of_halted hhalt⟩
  have hfetch : fetchAt s.pc.toNat (width i) s = .next (s.mem.readBytes s.pc.toNat (width i)) :=
    fetchAt_eq_next.2 ⟨htop, hadm, rfl⟩
  have hinstr : fetchInstr s = .next i := fetchInstr_of_decode (fetchBytes_of_decode hfetch hdec) hdec
  rw [step_of_running hrun, hinstr, andThen_next]

end Sys2Proof.Machine
end

section
/-! SUPPORT. The refusals an instruction's meaning can answer (00_scope R4, R10). -/

namespace Sys2Proof.Machine

/-- The refusals that the meaning of an instruction raises: all but those of fetching and decoding, and the one for an
instruction without a meaning. -/
def Refusal.ofMeaning (r : Refusal) : Bool :=
  match r with
  | .addressTop | .textStore _ | .form | .itPlacement | .branchIntoBlock _ | .unalignedPcLoad => true
  | _ => false

/-- What is refused, if anything, is refused for a reason of the instruction's meaning. -/
def RefusedByMeaning {α : Type} (x : Attempt α) : Prop := ∀ r, x = .refused r → r.ofMeaning = true

section
variable {α β : Type}

theorem RefusedByMeaning.next (a : α) : RefusedByMeaning (.next a) := fun _ h => by cases h

theorem RefusedByMeaning.fault (f : Fault) : RefusedByMeaning (.fault f : Attempt α) := fun _ h => by cases h

theorem RefusedByMeaning.refused {r : Refusal} (h : r.ofMeaning = true) : RefusedByMeaning (.refused r : Attempt α) := by
  rintro _ ⟨⟩
  exact h

theorem RefusedByMeaning.andThen {x : Attempt α} {f : α → Attempt β} (hx : RefusedByMeaning x)
    (hf : ∀ a, RefusedByMeaning (f a)) : RefusedByMeaning (andThen x f) := by
  intro r h
  obtain h | ⟨a, -, h⟩ := andThen_eq_refused.1 h
  · exact hx r h
  · exact hf a r h

theorem RefusedByMeaning.ite {c : Prop} [Decidable c] {x y : Attempt α} (hx : RefusedByMeaning x)
    (hy : RefusedByMeaning y) : RefusedByMeaning (if c then x else y) := by
  split
  · exact hx
  · exact hy

end

/-! ## The shared operations -/

theorem checkAlign_refusedByMeaning (ok : Bool) (cls : AccessClass) (a : Word) (s : State) :
    RefusedByMeaning (checkAlign ok cls a s) := fun _ h => absurd h (checkAlign_ne_refused _ _ _ _ _)

theorem readAt_refusedByMeaning (a n : Nat) (s : State) : RefusedByMeaning (readAt a n s) :=
  .ite (.refused rfl) (.ite (.fault _) (.next _))

theorem writeAt_refusedByMeaning (a n : Nat) (v : Word) (s : State) : RefusedByMeaning (writeAt a n v s) :=
  .ite (.refused rfl) (.ite (.refused rfl) (.ite (.fault _) (.next _)))

theorem readWords_refusedByMeaning (k a : Nat) (s : State) : RefusedByMeaning (readWords k a s) := by
  induction k generalizing a with
  | zero => exact .next _
  | succ k ih => exact .andThen (readAt_refusedByMeaning _ _ _) fun _ => .andThen (ih _) fun _ => .next _

theorem retire_refusedByMeaning (i : Instr) (s : State) : RefusedByMeaning (retire i s) := .ite (.next _) (.refused rfl)

theorem branchTo_refusedByMeaning (target : Word) (s : State) : RefusedByMeaning (branchTo target s) :=
  .ite (.refused rfl) (.next _)

theorem loadWritePc_refusedByMeaning (v : Word) (s s' : State) : RefusedByMeaning (loadWritePc v s s') :=
  .ite (branchTo_refusedByMeaning _ _) (.fault _)

theorem conditionalAs_refusedByMeaning (own : Cond) (p : Placement) (i : Instr) (s : State) {effect : Result}
    (h : RefusedByMeaning effect) : RefusedByMeaning (conditionalAs own p i s effect) :=
  .ite (retire_refusedByMeaning _ _) (.ite (.refused rfl) (.ite (.refused rfl) h))

theorem unconditional_refusedByMeaning (i : Instr) (s : State) {effect : Result} (h : RefusedByMeaning effect) :
    RefusedByMeaning (unconditional i s effect) :=
  .ite (.refused rfl) (.ite (.refused rfl) h)

/-! ## The families of instructions -/

/-- A conditional instruction whose own effect is to complete from some state: every data-processing and special-register
instruction. -/
theorem conditionalAs_retire_refusedByMeaning (own : Cond) (p : Placement) (i : Instr) (s t : State) :
    RefusedByMeaning (conditionalAs own p i s (retire i t)) :=
  conditionalAs_refusedByMeaning own p i s (retire_refusedByMeaning i t)

/-- CBZ and CBNZ: a branch under a condition on a register, else the next instruction. -/
theorem compareBranch_refusedByMeaning (i : Instr) (s : State) (c : Prop) [Decidable c] (target : Word) :
    RefusedByMeaning (unconditional i s (if c then branchTo target s else retire i s)) :=
  unconditional_refusedByMeaning i s (.ite (branchTo_refusedByMeaning target s) (retire_refusedByMeaning i s))

theorem loadWord_refusedByMeaning (i : Instr) (rt : Reg) (form : AddrForm) (s : State) :
    RefusedByMeaning (loadWord i rt form s) :=
  conditionalAs_refusedByMeaning _ _ _ _ <|
    .andThen (checkAlign_refusedByMeaning _ _ _ _) fun _ =>
      .ite (.refused rfl) <|
        .andThen (readAt_refusedByMeaning _ _ _) fun _ =>
          .ite (loadWritePc_refusedByMeaning _ _ _) (retire_refusedByMeaning _ _)

theorem loadHalf_refusedByMeaning (i : Instr) (rt : Reg) (form : AddrForm) (ext : Extend) (s : State) :
    RefusedByMeaning (loadHalf i rt form ext s) :=
  conditionalAs_refusedByMeaning _ _ _ _ <|
    .andThen (.andThen (checkAlign_refusedByMeaning _ _ _ _) fun _ => readAt_refusedByMeaning _ _ _)
      fun _ => retire_refusedByMeaning _ _

theorem store_refusedByMeaning (i : Instr) (rt : Reg) (form : AddrForm) (cls : AccessClass) (n : Nat) (s : State) :
    RefusedByMeaning (store i rt form cls n s) :=
  conditionalAs_refusedByMeaning _ _ _ _ <|
    .andThen (.andThen (checkAlign_refusedByMeaning _ _ _ _) fun _ => writeAt_refusedByMeaning _ _ _ _)
      fun _ => retire_refusedByMeaning _ _

theorem loadMultiple_refusedByMeaning (i : Instr) (regs : List Reg) (toPc : Bool) (start : Word)
    (wb : Option (Reg × Word)) (s : State) : RefusedByMeaning (loadMultiple i regs toPc start wb s) :=
  conditionalAs_refusedByMeaning _ _ _ _ <|
    .andThen (checkAlign_refusedByMeaning _ _ _ _) fun _ =>
      .andThen (readWords_refusedByMeaning _ _ _) fun _ =>
        .ite (.andThen (readAt_refusedByMeaning _ _ _) fun _ => loadWritePc_refusedByMeaning _ _ _)
          (retire_refusedByMeaning _ _)

/-! ## Every instruction -/

/-- The meaning of an instruction refuses only for its own reasons, by family of instructions. -/
theorem exec_refusedByMeaning (i : Instr) (s : State) : RefusedByMeaning (exec i s) := by
  cases i
  case bCond16 | b16 | bCond32 | b32 | bl => exact conditionalAs_refusedByMeaning _ _ _ _ (branchTo_refusedByMeaning _ _)
  case bx | blx => exact conditionalAs_refusedByMeaning _ _ _ _ (loadWritePc_refusedByMeaning _ _ _)
  case cbz rn imm6 => exact compareBranch_refusedByMeaning (.cbz rn imm6) s (s.reg rn.reg = 0#32) _
  case cbnz rn imm6 => exact compareBranch_refusedByMeaning (.cbnz rn imm6) s (s.reg rn.reg ≠ 0#32) _
  case it => exact unconditional_refusedByMeaning _ _ (.andThen (retire_refusedByMeaning _ _) fun _ => .next _)
  case ldrLit16 | ldrReg16 | ldrImm16 | ldrSp16 | ldrImm12 | ldrNeg8 | ldrPre | ldrPost | ldrt | ldrReg32 | ldrLit32 =>
    exact loadWord_refusedByMeaning _ _ _ _
  case ldrhReg16 | ldrshReg16 | ldrhImm16 | ldrhImm12 | ldrhNeg8 | ldrhPre | ldrhPost | ldrht | ldrhReg32 | ldrhLit32 |
      ldrshImm12 | ldrshNeg8 | ldrshPre | ldrshPost | ldrsht | ldrshReg32 | ldrshLit32 =>
    exact loadHalf_refusedByMeaning _ _ _ _ _
  case strReg16 | strhReg16 | strImm16 | strhImm16 | strSp16 | strImm12 | strNeg8 | strPre | strPost | strt | strReg32 |
      strhImm12 | strhNeg8 | strhPre | strhPost | strht | strhReg32 =>
    exact store_refusedByMeaning _ _ _ _ _ _
  case pop16 | ldm16 | ldm32 | ldmdb | popW => exact loadMultiple_refusedByMeaning _ _ _ _ _ _
  case popWOne => exact .ite (loadMultiple_refusedByMeaning _ _ _ _ _ _) (loadMultiple_refusedByMeaning _ _ _ _ _ _)
  -- data processing, shifts and special registers complete in the next state
  all_goals exact conditionalAs_retire_refusedByMeaning _ _ _ _ _

/-- Settles O20: the refusal for an instruction without a meaning is none that a meaning raises. -/
theorem everyInstructionModelled : Obligations.EveryInstructionModelled := by
  intro i s m h
  exact absurd (exec_refusedByMeaning i s _ h) Bool.false_ne_true

end Sys2Proof.Machine
end

section
/-! SUPPORT. What an instruction can do, said once: the updates of the state that its tables of destinations, flags and stores
allow it, or its one write of a special register, and then one of three ways to go on. The frames of every instruction and the
invariant follow from this. -/

namespace Sys2Proof

open Machine

/-- What an instruction that may write the flags `w` keeps of `f` where it leaves `g`. -/
def FlagsWritten.Keeps (w : FlagsWritten) (f g : Flags) : Prop :=
  match w with
  | .none => g = f
  | .nzc => g.v = f.v
  | .nzcv => True

theorem FlagsWritten.Keeps.refl (w : FlagsWritten) (f : Flags) : w.Keeps f f := by
  cases w
  case none => exact rfl
  case nzc => exact rfl
  case nzcv => exact trivial

/-- The instruction is a Write function (40_special_register_access R131, R132). -/
def Instr.isMsr (i : Instr) : Bool :=
  match i with
  | .setPrimask _ | .setFaultmask _ | .setBasepri _ | .setControl _ | .setMsp _ | .setPsp _ => true
  | _ => false

theorem isMsr_msr (rn : Reg) (r : SysReg) : (msr rn r).isMsr = true := by cases r <;> rfl

/-- An instruction that is no Write function is none of them. -/
theorem ne_msr_of_isMsr {i : Instr} (h : i.isMsr = false) (rn : Reg) (r : SysReg) : i ≠ msr rn r := by
  rintro rfl
  exact absurd (isMsr_msr rn r) (Bool.eq_false_iff.1 h)

theorem LowReg.reg_ne_pc (r : LowReg) : r.reg ≠ .pc := by cases r <;> decide

end Sys2Proof

namespace Sys2Proof.Machine

/-- The registers an addressing form writes back (43_load_store R211). -/
def AddrForm.bases (f : AddrForm) : List Reg :=
  match f with
  | .preIndexed rn _ | .postIndexed rn _ => [rn]
  | .offset .. | .register .. | .literal .. => []

theorem AddrForm.mem_bases {f : AddrForm} {s : State} {r : Reg} {v : Word} (h : f.writeback s = some (r, v)) :
    r ∈ f.bases := by
  cases f <;> simp_all [AddrForm.writeback, AddrForm.bases]

/-- What a writeback of `r` writes is `r`. -/
theorem mem_of_written {r : Reg} {v : Word} {l : List Reg} (h : r ∈ l) : ∀ q v', some (r, v) = some (q, v') → q ∈ l := by
  rintro _ _ ⟨⟩
  exact h

/-! ## Even addresses (10_state R23) -/

theorem even_add {a b : Word} (ha : a.getLsbD 0 = false) (hb : b.getLsbD 0 = false) : (a + b).getLsbD 0 = false := by
  simp [BitVec.getLsbD_add (show 0 < 32 by decide) a b, ha, hb, BitVec.carry_zero, -BitVec.getLsbD_eq_getElem]

theorem branchOffset_even {w : Nat} (imm : BitVec w) : (branchOffset imm).getLsbD 0 = false := by simp [branchOffset]

theorem forwardOffset_even (imm6 : BitVec 6) : (forwardOffset imm6).getLsbD 0 = false := by simp [forwardOffset]

theorem pcBranch_even {a : Word} (h : a.getLsbD 0 = false) : (pcBranch a).getLsbD 0 = false := even_add h (by decide)

theorem bit0_removed_even (v : Word) : (v &&& 0xFFFFFFFE#32).getLsbD 0 = false := by simp

theorem width_even (i : Instr) : (BitVec.ofNat 32 (width i)).getLsbD 0 = false := by
  simp [width, BitVec.getLsbD_ofNat, -BitVec.getLsbD_eq_getElem]

/-! ## The three parts of a meaning -/

/-- `u` is `s` after updates that the tables of `i` allow: writes of its destinations, of its flags and of the bytes it stores
to. -/
inductive Updates (i : Instr) (s : State) : State → Prop where
  | refl : Updates i s s
  | setReg {u : State} (hu : Updates i s u) {r : Reg} (hr : r ∈ i.dests) (v : Word) : Updates i s (u.setReg r v)
  | setFlags {u : State} (hu : Updates i s u) {f : Flags}
      (hf : (i.flagsWritten s.itstate.isEmpty).Keeps s.flags f) : Updates i s { u with flags := f }
  | store {u : State} (hu : Updates i s u) {a n : Nat} (hs : i.storesTo s = some (a, n)) (ha : a + n ≤ addressCount)
      (v : Word) : Updates i s { u with mem := u.mem.writeLe a n v }

/-- `u` is `s` after what `i` does besides going on: nothing, its updates, or the write of a special register. -/
inductive OwnEffect (i : Instr) (s : State) : State → Prop where
  | nothing : OwnEffect i s s
  | updates {u : State} (hm : i.isMsr = false) (hu : Updates i s u) : OwnEffect i s u
  | special (rn : Reg) (r : SysReg) (hi : i = msr rn r) (v : Word) : OwnEffect i s (writeSpecial r v s)

/-- From `u`, `i` goes on in `t`: at the next instruction, at the target of a branch or of a load of the PC, or at the next
instruction with a block opened. -/
inductive GoesOn (i : Instr) (u : State) : State → Prop where
  | advance (hroom : Room (width i) u) : GoesOn i u (u.advanced (width i))
  | jump (hw : i.writesPc = true) {target : Word} (he : u.pc.getLsbD 0 = false → target.getLsbD 0 = false) :
      GoesOn i u { u with pc := target, itstate := u.itstate.tail }
  | openBlock (c : Cond) (mask : BitVec 4) (hi : i = .it c mask) (hroom : Room (width i) u) :
      GoesOn i u { u.advanced (width i) with itstate := itBlock c mask }

/-- `i` can lead from `s` to `t`. -/
def Effect (i : Instr) (s t : State) : Prop := ∃ u, OwnEffect i s u ∧ GoesOn i u t

/-! ## Updates -/

section
variable {i : Instr} {s u : State}

/-- The write of flags under an S bit `sf`, where the flags written are those of the instruction if `sf` is set. -/
theorem Updates.withFlags (hu : Updates i s u) {sf : Bool} {w : FlagsWritten} {f : Flags}
    (hw : i.flagsWritten s.itstate.isEmpty = .onlyIf sf w) (hf : w.Keeps s.flags f) : Updates i s (u.withFlags sf f) := by
  cases sf
  case false => exact hu
  case true => exact hu.setFlags (hw ▸ hf)

theorem Updates.writeBack (hu : Updates i s u) {wb : Option (Reg × Word)} (h : ∀ r v, wb = some (r, v) → r ∈ i.dests) :
    Updates i s (u.writeBack wb) := by
  cases wb with
  | none => exact hu
  | some p => exact hu.setReg (h p.1 p.2 rfl) p.2

theorem Updates.setRegs (hu : Updates i s u) {l : List (Reg × Word)} (h : ∀ p ∈ l, p.1 ∈ i.dests) :
    Updates i s (u.setRegs l) := by
  induction l generalizing u with
  | nil => exact hu
  | cons p l ih => exact ih (hu.setReg (h p List.mem_cons_self) p.2) fun q hq => h q (List.mem_cons_of_mem _ hq)

end

/-! ## The shared operations -/

section
variable {i : Instr} {s u t : State}

theorem retire_effect (h : retire i u = .next t) (hu : OwnEffect i s u) : Effect i s t := by
  obtain ⟨hroom, rfl⟩ := retire_eq_next.1 h
  exact ⟨u, hu, .advance hroom⟩

theorem branchTo_effect {target : Word} (h : branchTo target u = .next t) (hu : OwnEffect i s u) (hw : i.writesPc = true)
    (he : u.pc.getLsbD 0 = false → target.getLsbD 0 = false) : Effect i s t := by
  obtain ⟨-, rfl⟩ := branchTo_eq_next.1 h
  exact ⟨u, hu, .jump hw he⟩

theorem loadWritePc_effect {v : Word} {s' : State} (h : loadWritePc v s' u = .next t) (hu : OwnEffect i s u)
    (hw : i.writesPc = true) : Effect i s t := by
  obtain ⟨-, -, rfl⟩ := loadWritePc_eq_next.1 h
  exact ⟨u, hu, .jump hw fun _ => bit0_removed_even v⟩

/-- A conditional instruction has its own effect or only goes on. -/
theorem conditionalAs_effect {own : Cond} {p : Placement} {effect : Result}
    (h : conditionalAs own p i s effect = .next t) (he : effect = .next t → Effect i s t) : Effect i s t := by
  obtain ⟨-, h⟩ | ⟨-, -, -, h⟩ := conditionalAs_eq_next h
  · exact retire_effect h .nothing
  · exact he h

/-! ## The families of instructions -/

/-- A conditional instruction that updates the state and completes: every data-processing instruction and Read function. -/
theorem conditionalAs_retire_effect {own : Cond} {p : Placement} (h : conditionalAs own p i s (retire i u) = .next t)
    (hm : i.isMsr = false) (hu : Updates i s u) : Effect i s t :=
  conditionalAs_effect h fun h => retire_effect h (.updates hm hu)

theorem logicalTo_effect {sf : Bool} {rd : Reg} {r : Word} {carry : Bool} (h : logicalTo i sf rd r carry s = .next t)
    (hm : i.isMsr = false) (hd : i.dests = [rd]) (hf : i.flagsWritten s.itstate.isEmpty = .onlyIf sf .nzc) :
    Effect i s t :=
  conditionalAs_retire_effect h hm <| .withFlags (.setReg .refl (hd ▸ List.mem_cons_self) r) hf rfl

theorem arithTo_effect {sf : Bool} {rd : Reg} {a : ArithResult} (h : arithTo i sf rd a s = .next t)
    (hm : i.isMsr = false) (hd : i.dests = [rd]) (hf : i.flagsWritten s.itstate.isEmpty = .onlyIf sf .nzcv) :
    Effect i s t :=
  conditionalAs_retire_effect h hm <| .withFlags (.setReg .refl (hd ▸ List.mem_cons_self) a.value) hf trivial

theorem logicalTest_effect {r : Word} {carry : Bool} (h : logicalTest i r carry s = .next t) (hm : i.isMsr = false)
    (hf : i.flagsWritten s.itstate.isEmpty = .nzc) : Effect i s t :=
  conditionalAs_retire_effect h hm <| .withFlags (sf := true) (w := .nzc) .refl hf rfl

theorem arithTest_effect {a : ArithResult} (h : arithTest i a s = .next t) (hm : i.isMsr = false)
    (hf : i.flagsWritten s.itstate.isEmpty = .nzcv) : Effect i s t :=
  conditionalAs_retire_effect h hm <| .withFlags (sf := true) (w := .nzcv) .refl hf trivial

theorem readFunction_effect {rd : Reg} {r : SysReg} (h : readFunction i rd r s = .next t) (hm : i.isMsr = false)
    (hd : i.dests = [rd]) : Effect i s t :=
  conditionalAs_retire_effect h hm <| .setReg .refl (hd ▸ List.mem_cons_self) _

theorem writeFunction_effect {rn : Reg} {r : SysReg} (h : writeFunction i rn r s = .next t) (hi : i = msr rn r) :
    Effect i s t :=
  conditionalAs_effect h fun h => retire_effect h (.special rn r hi _)

/-- B, B<cond> and BL: a branch relative to the PC, from a state with the PC of `s`. -/
theorem branch_effect {own : Cond} {p : Placement} {w : Nat} {imm : BitVec w}
    (h : conditionalAs own p i s (branchTo (pcBranch s.pc + branchOffset imm) u) = .next t) (hm : i.isMsr = false)
    (hw : i.writesPc = true) (hu : Updates i s u) (hpc : u.pc = s.pc) : Effect i s t :=
  conditionalAs_effect h fun h =>
    branchTo_effect h (.updates hm hu) hw fun he => even_add (pcBranch_even (hpc ▸ he)) (branchOffset_even imm)

/-- CBZ and CBNZ. -/
theorem compareBranch_effect {c : Prop} [Decidable c] {imm6 : BitVec 6}
    (h : unconditional i s (if c then branchTo (pcBranch s.pc + forwardOffset imm6) s else retire i s) = .next t)
    (hw : i.writesPc = true) : Effect i s t := by
  obtain ⟨-, -, h⟩ := unconditional_eq_next h
  split at h
  · exact branchTo_effect h .nothing hw fun he => even_add (pcBranch_even he) (forwardOffset_even imm6)
  · exact retire_effect h .nothing

theorem execIt_effect {c : Cond} {mask : BitVec 4} (h : execIt c mask s = .next t) : Effect (.it c mask) s t := by
  obtain ⟨-, -, h⟩ := unconditional_eq_next h
  obtain ⟨u, hu, h⟩ := andThen_eq_next.1 h
  obtain ⟨hroom, rfl⟩ := retire_eq_next.1 hu
  injection h with h
  exact ⟨s, .nothing, h ▸ .openBlock c mask rfl hroom⟩

theorem loadWord_effect {rt : Reg} {form : AddrForm} (h : loadWord i rt form s = .next t) (hm : i.isMsr = false)
    (hd : i.dests = rt :: form.bases) (hw : rt = .pc → i.writesPc = true) : Effect i s t := by
  have hwb : Updates i s (s.writeBack (form.writeback s)) :=
    .writeBack .refl fun r v hr => hd ▸ List.mem_cons_of_mem _ (AddrForm.mem_bases hr)
  refine conditionalAs_effect h fun h => ?_
  obtain ⟨-, -, h⟩ := andThen_eq_next.1 h
  split at h
  · cases h
  · obtain ⟨v, -, h⟩ := andThen_eq_next.1 h
    split at h
    next hpc => exact loadWritePc_effect h (.updates hm hwb) (hw hpc)
    next => exact retire_effect h (.updates hm (hwb.setReg (hd ▸ List.mem_cons_self) v))

theorem loadHalf_effect {rt : Reg} {form : AddrForm} {ext : Extend} (h : loadHalf i rt form ext s = .next t)
    (hm : i.isMsr = false) (hd : i.dests = rt :: form.bases) : Effect i s t := by
  refine conditionalAs_effect h fun h => ?_
  obtain ⟨v, -, h⟩ := andThen_eq_next.1 h
  have hwb : Updates i s (s.writeBack (form.writeback s)) :=
    .writeBack .refl fun r v hr => hd ▸ List.mem_cons_of_mem _ (AddrForm.mem_bases hr)
  exact retire_effect h (.updates hm (hwb.setReg (hd ▸ List.mem_cons_self) _))

theorem store_effect {rt : Reg} {form : AddrForm} {cls : AccessClass} {n : Nat} (h : store i rt form cls n s = .next t)
    (hm : i.isMsr = false) (hd : i.dests = form.bases) (hs : i.storesTo s = some ((form.address s).toNat, n)) :
    Effect i s t := by
  refine conditionalAs_effect h fun h => ?_
  obtain ⟨u, hu, h⟩ := andThen_eq_next.1 h
  obtain ⟨-, -, hu⟩ := andThen_eq_next.1 hu
  obtain ⟨ha, -, -, rfl⟩ := writeAt_eq_next.1 hu
  exact retire_effect h (.updates hm (.writeBack (.store .refl hs ha _) fun r v hr => hd ▸ AddrForm.mem_bases hr))

theorem loadMultiple_effect {regs : List Reg} {toPc : Bool} {start : Word} {wb : Option (Reg × Word)}
    (h : loadMultiple i regs toPc start wb s = .next t) (hm : i.isMsr = false) (hd : regs ⊆ i.dests)
    (hwb : ∀ r v, wb = some (r, v) → r ∈ i.dests) (hw : toPc = true → i.writesPc = true) : Effect i s t := by
  refine conditionalAs_effect h fun h => ?_
  obtain ⟨-, -, h⟩ := andThen_eq_next.1 h
  obtain ⟨vs, -, h⟩ := andThen_eq_next.1 h
  have hu : OwnEffect i s ((s.setRegs (regs.zip vs)).writeBack wb) :=
    .updates hm (.writeBack (.setRegs .refl fun p hp => hd (List.of_mem_zip hp).1) hwb)
  split at h
  next hp =>
    obtain ⟨v, -, h⟩ := andThen_eq_next.1 h
    exact loadWritePc_effect h hu (hw hp)
  next => exact retire_effect h hu

end

/-! ## Every instruction -/

/-- What an instruction does is one of its effects, by family of instructions. -/
theorem exec_effect {i : Instr} {s t : State} (h : exec i s = .next t) : Effect i s t := by
  cases i
  case lslsImm16 | lsrsImm16 | asrsImm16 | movsImm8 | andsReg16 | eorsReg16 | lslsReg16 | lsrsReg16 | asrsReg16 | rorsReg16 |
      orrsReg16 | bicsReg16 | mvnsReg16 | movHigh | andConst | bicConst | orrConst | ornConst | eorConst | movConst |
      mvnConst | andShift | bicShift | orrShift | ornShift | eorShift | movReg32 | lslImm32 | lsrImm32 | asrImm32 |
      rorImm32 | rrx | mvnShift | lslReg32 | lsrReg32 | asrReg32 | rorReg32 =>
    exact logicalTo_effect h rfl rfl rfl
  case movsReg16 rd rm =>
    exact conditionalAs_retire_effect h rfl
      (.withFlags (w := .nzc) (.setReg (r := rd.reg) .refl List.mem_cons_self _) rfl rfl)
  case addsReg16 | addsImm3 | addsImm8 | rsbsZero16 | addHigh | addConst | rsbConst | addShift | rsbShift =>
    exact arithTo_effect h rfl rfl rfl
  case tstReg16 | tstConst | teqConst | tstShift | teqShift => exact logicalTest_effect h rfl rfl
  case cmpImm8 | cmpReg16 | cmnReg16 | cmpHigh | cmnConst | cmpConst | cmnShift | cmpShift =>
    exact arithTest_effect h rfl rfl
  case getPrimask | getFaultmask | getBasepri | getControl | getMsp | getPsp => exact readFunction_effect h rfl rfl
  case setPrimask | setFaultmask | setBasepri | setControl | setMsp | setPsp => exact writeFunction_effect h rfl
  case bx => exact conditionalAs_effect h fun h => loadWritePc_effect h .nothing rfl
  case blx =>
    exact conditionalAs_effect h fun h =>
      loadWritePc_effect h (.updates rfl (.setReg .refl (r := .lr) List.mem_cons_self _)) rfl
  case cbz rn imm6 => exact compareBranch_effect (c := s.reg rn.reg = 0#32) h rfl
  case cbnz rn imm6 => exact compareBranch_effect (c := s.reg rn.reg ≠ 0#32) h rfl
  case it => exact execIt_effect h
  case b16 | bCond16 | b32 | bCond32 => exact branch_effect h rfl rfl .refl rfl
  case bl => exact branch_effect h rfl rfl (.setReg .refl (r := .lr) List.mem_cons_self _) rfl
  case ldrLit16 rt _ | ldrReg16 rt _ _ | ldrImm16 rt _ _ | ldrSp16 rt _ =>
    exact loadWord_effect h rfl rfl fun hpc => absurd hpc rt.reg_ne_pc
  case ldrImm12 | ldrNeg8 | ldrPre | ldrPost | ldrt | ldrReg32 | ldrLit32 =>
    exact loadWord_effect h rfl rfl fun hpc => decide_eq_true hpc
  case ldrhReg16 | ldrshReg16 | ldrhImm16 | ldrhImm12 | ldrhNeg8 | ldrhPre | ldrhPost | ldrht | ldrhReg32 | ldrhLit32 |
      ldrshImm12 | ldrshNeg8 | ldrshPre | ldrshPost | ldrsht | ldrshReg32 | ldrshLit32 =>
    exact loadHalf_effect h rfl rfl
  case strReg16 | strhReg16 | strImm16 | strhImm16 | strSp16 | strImm12 | strNeg8 | strPre | strPost | strt | strReg32 |
      strhImm12 | strhNeg8 | strhPre | strhPost | strht | strhReg32 =>
    exact store_effect h rfl rfl rfl
  case pop16 | popW => exact loadMultiple_effect h rfl (List.subset_cons_self _ _) (mem_of_written List.mem_cons_self) id
  case ldm16 rn list =>
    refine loadMultiple_effect h rfl (List.subset_cons_self _ _) ?_ nofun
    split
    · nofun
    · exact mem_of_written List.mem_cons_self
  case ldm32 w rn p m list | ldmdb w rn p m list =>
    refine loadMultiple_effect h rfl (List.subset_append_right _ _) ?_ id
    cases w
    case false => nofun
    case true => exact mem_of_written List.mem_cons_self
  case popWOne rt =>
    have hsp : Reg.sp ∈ (Instr.popWOne rt).dests := List.mem_cons_self
    change (if rt = .pc then _ else _) = _ at h
    split at h
    next hpc => exact loadMultiple_effect h rfl (List.nil_subset _) (mem_of_written hsp) fun _ => decide_eq_true hpc
    next => exact loadMultiple_effect h rfl (List.subset_cons_self _ _) (mem_of_written hsp) nofun

end Sys2Proof.Machine
end

section
/-! SUPPORT. The state and its frames (10_state): reset, the stack pointers, the invariant, and what every instruction leaves of
the registers, the flags, the special registers, the PC and the IT state. -/

namespace Sys2Proof.Machine

/-! ## Stack pointers and masks -/

/-- Bits[1:0] of a stack pointer read as zero (10_state R21). -/
theorem stackAligned_and_three (v : Word) : stackAligned v &&& 3#32 = 0#32 := by
  rw [stackAligned, BitVec.and_assoc, show 0xFFFFFFFC#32 &&& 3#32 = 0#32 by decide, BitVec.and_zero]

/-- MSP after a register write is as before, or aligned. -/
theorem State.setReg_msp_cases (s : State) (r : Reg) (v : Word) :
    (s.setReg r v).msp = s.msp ∨ (s.setReg r v).msp = stackAligned v := by
  cases r
  case sp => rw [State.setReg, State.setSp]; split; exacts [.inl rfl, .inr rfl]
  all_goals exact .inl rfl

/-- PSP after a register write is as before, or aligned. -/
theorem State.setReg_psp_cases (s : State) (r : Reg) (v : Word) :
    (s.setReg r v).psp = s.psp ∨ (s.setReg r v).psp = stackAligned v := by
  cases r
  case sp => rw [State.setReg, State.setSp]; split; exacts [.inr rfl, .inl rfl]
  all_goals exact .inl rfl

theorem byteMask_getLsbD (k : Nat) : (0xFF#32).getLsbD k = decide (k < 8) := by
  have hlt : k < 8 → k < 32 := by omega
  rw [show 0xFF#32 = BitVec.ofNat 32 (2 ^ 8 - 1) from rfl, BitVec.getLsbD_ofNat, Nat.testBit_two_pow_sub_one]
  simpa using hlt

/-- The priority mask is the top `n` bits of a byte (10_state R34). -/
theorem prioMask_getLsbD {n k : Nat} : (prioMask n).getLsbD k = true ↔ 8 - n ≤ k ∧ k < 8 := by
  simp only [prioMask, BitVec.getLsbD_and, BitVec.getLsbD_shiftLeft, byteMask_getLsbD, Bool.and_eq_true,
    decide_eq_true_eq, Bool.not_eq_true', decide_eq_false_iff_not]
  omega

/-- Settles O60, by the laws of a register write and the bits of the mask. -/
theorem bankedStackPointer : Obligations.BankedStackPointer := by
  refine ⟨fun s => rfl, fun s v => ⟨?_, fun h => ?_, fun h => ?_⟩, fun n k _ _ => prioMask_getLsbD⟩
  · exact s.reg_setReg_self .sp v (by decide)
  · exact s.setReg_msp .sp v (.inr h)
  · exact s.setReg_psp .sp v (.inr h)

/-! ## Reset -/

/-- Settles O9: the two words of the reset vector are read as `wordAt` says. -/
theorem resetValues : Obligations.ResetValues := by
  refine ⟨rfl, rfl, rfl, rfl, rfl, rfl, rfl, ?_, ?_, rfl⟩
  · rw [← Memory.readLe_four]; rfl
  · rw [← Memory.readLe_four]; rfl

/-- Settles O10: MSP and the PC are words with their low bits removed, and what else the invariant names is empty or 0. -/
theorem resetInv : Obligations.ResetInv where
  mem_wf := reset_mem_wf
  pc_even := bit0_removed_even _
  msp_aligned := stackAligned_and_three _
  psp_aligned := BitVec.zero_and
  primask_bits := BitVec.zero_and
  faultmask_bits := BitVec.zero_and
  basepri_bits := BitVec.zero_and
  control_bits := BitVec.zero_and
  it_length := Nat.zero_le 4

/-! ## The invariant -/

/-- A write of the bits of `mask` brings in no bit of `q` that the value under the mask has not. -/
theorem mergeBits_and_eq_zero {mask old v q : Word} (ho : old &&& q = 0#32) (hv : v &&& mask &&& q = 0#32) :
    mergeBits mask old v &&& q = 0#32 := by
  have hold : old &&& ~~~mask &&& q = 0#32 := by
    rw [BitVec.and_assoc, BitVec.and_comm (~~~mask), ← BitVec.and_assoc, ho, BitVec.zero_and]
  rw [mergeBits, BitVec.and_or_distrib_right, hold, hv, BitVec.or_zero]

/-- Bits of `p` are none of its complement's, whatever else they are bits of. -/
theorem and_and_not_eq_zero (x p : Word) : x &&& p &&& ~~~p = 0#32 := by
  simp [BitVec.and_assoc]

namespace State.Inv

variable {s : State}

theorem setReg (h : s.Inv) (r : Reg) (v : Word) : (s.setReg r v).Inv where
  mem_wf := by simpa using h.mem_wf
  pc_even := by simpa using h.pc_even
  msp_aligned := by
    obtain e | e := s.setReg_msp_cases r v
    · rw [e, h.msp_aligned]
    · rw [e, stackAligned_and_three]
  psp_aligned := by
    obtain e | e := s.setReg_psp_cases r v
    · rw [e, h.psp_aligned]
    · rw [e, stackAligned_and_three]
  primask_bits := by simpa using h.primask_bits
  faultmask_bits := by simpa using h.faultmask_bits
  basepri_bits := by simpa using h.basepri_bits
  control_bits := by simpa using h.control_bits
  it_length := by simpa using h.it_length

/-- The invariant says nothing of the flags. -/
theorem setFlags (h : s.Inv) (f : Flags) : State.Inv { s with flags := f } := { h with }

theorem store (h : s.Inv) {a n : Nat} (ha : a + n ≤ addressCount) (v : Word) :
    State.Inv { s with mem := s.mem.writeLe a n v } := { h with mem_wf := Memory.writeLe_wf h.mem_wf ha }

/-- Going on at an even address with a block of at most four instructions. -/
theorem goOn (h : s.Inv) {p : Word} {l : List Cond} (hp : p.getLsbD 0 = false) (hl : l.length ≤ 4) :
    State.Inv { s with pc := p, itstate := l } := { h with pc_even := hp, it_length := hl }

/-- A write of a special register reaches only the bits it has (40_special_register_access R146). -/
theorem special (h : s.Inv) (r : SysReg) (v : Word) : (writeSpecial r v s).Inv := by
  unfold writeSpecial
  split
  · exact h
  cases r
  case primask => exact { h with primask_bits := mergeBits_and_eq_zero h.primask_bits (and_and_not_eq_zero v 1#32) }
  case faultmask => exact { h with faultmask_bits := mergeBits_and_eq_zero h.faultmask_bits (and_and_not_eq_zero v 1#32) }
  case basepri =>
    refine { h with basepri_bits := mergeBits_and_eq_zero h.basepri_bits ?_ }
    rw [BitVec.and_assoc v, BitVec.and_comm (prioMask _), ← BitVec.and_assoc]
    exact and_and_not_eq_zero _ _
  case control => exact { h with control_bits := mergeBits_and_eq_zero h.control_bits (and_and_not_eq_zero v _) }
  case msp => exact { h with msp_aligned := stackAligned_and_three v }
  case psp => exact { h with psp_aligned := stackAligned_and_three v }

end State.Inv

section
variable {i : Instr} {s u t : State}

theorem Updates.inv (hu : Updates i s u) (h : s.Inv) : u.Inv := by
  induction hu with
  | refl => exact h
  | setReg _ _ v ih => exact ih.setReg _ v
  | setFlags _ _ ih => exact ih.setFlags _
  | store _ _ ha v ih => exact ih.store ha v

theorem OwnEffect.inv (hu : OwnEffect i s u) (h : s.Inv) : u.Inv := by
  cases hu with
  | nothing => exact h
  | updates _ hu => exact hu.inv h
  | special rn r _ v => exact h.special r v

theorem GoesOn.inv (hg : GoesOn i u t) (h : u.Inv) : t.Inv := by
  have hnext : (u.pc + BitVec.ofNat 32 (width i)).getLsbD 0 = false := even_add h.pc_even (width_even i)
  have htail : u.itstate.tail.length ≤ 4 := by rw [List.length_tail]; exact (Nat.sub_le _ _).trans h.it_length
  cases hg with
  | advance => exact h.goOn hnext htail
  | jump _ he => exact h.goOn (he h.pc_even) htail
  | openBlock c mask => exact h.goOn hnext (itBlock_length c mask)

end

/-- Settles O11: every update an instruction can make keeps the invariant, and so does every way to go on. -/
theorem stepKeepsInv : Obligations.StepKeepsInv := by
  intro s t h hstep
  obtain ⟨-, rfl⟩ | ⟨-, i, -, hexec⟩ := step_eq_next hstep
  · exact h
  · obtain ⟨u, hu, hg⟩ := exec_effect hexec
    exact hg.inv (hu.inv h)

/-! ## Frames -/

/-- A write of a special register leaves the core registers: all of them, or all but SP where it writes CONTROL, MSP or PSP. -/
theorem writeSpecial_reg {rn : Reg} {r : SysReg} (v : Word) (s : State) {q : Reg} (hpc : q ≠ .pc)
    (hq : q ∉ (msr rn r).dests) : (writeSpecial r v s).reg q = s.reg q := by
  obtain ⟨-, -, -, hcontrol, hmsp, hpsp⟩ := writeSpecial_others r v s
  by_cases hsp : r = .control ∨ r = .msp ∨ r = .psp
  · have hq : q ≠ .sp := by
      rintro rfl
      obtain rfl | rfl | rfl := hsp <;> exact hq List.mem_cons_self
    cases q <;> simp_all [State.reg]
  · exact State.reg_congr (writeSpecial_gprs r v s) (hmsp fun e => hsp (.inr (.inl e)))
      (hpsp fun e => hsp (.inr (.inr e))) (writeSpecial_lr r v s) (hcontrol fun e => hsp (.inl e)) hpc

/-- MSP changes only where SP is among the registers written and names it. -/
theorem Frame.msp_cases {rs : List Reg} {s t : State} (h : Frame rs s t) :
    t.msp = s.msp ∨ .sp ∈ rs ∧ s.usesPsp = false := by
  by_cases hsp : .sp ∈ rs
  · cases hu : s.usesPsp
    case false => exact .inr ⟨hsp, rfl⟩
    case true => exact .inl (h.msp (.inr hu))
  · exact .inl (h.msp (.inl hsp))

/-- PSP changes only where SP is among the registers written and names it. -/
theorem Frame.psp_cases {rs : List Reg} {s t : State} (h : Frame rs s t) :
    t.psp = s.psp ∨ .sp ∈ rs ∧ s.usesPsp = true := by
  by_cases hsp : .sp ∈ rs
  · cases hu : s.usesPsp
    case false => exact .inl (h.psp (.inr hu))
    case true => exact .inr ⟨hsp, rfl⟩
  · exact .inl (h.psp (.inl hsp))

section
variable {i : Instr} {s u t : State}

theorem Updates.frame (hu : Updates i s u) : Frame i.dests s u := by
  induction hu with
  | refl => exact .refl s _
  | setReg _ hr v ih => exact ih.setReg hr v
  | setFlags _ _ ih => exact ih.of_fields rfl rfl rfl rfl rfl rfl rfl rfl rfl rfl
  | store _ _ _ v ih => exact ih.of_fields rfl rfl rfl rfl rfl rfl rfl rfl rfl rfl

theorem Updates.pc (hu : Updates i s u) : u.pc = s.pc := by
  induction hu with
  | refl => rfl
  | setReg _ _ v ih => rw [State.setReg_pc, ih]
  | setFlags _ _ ih => exact ih
  | store _ _ _ v ih => exact ih

theorem Updates.itstate (hu : Updates i s u) : u.itstate = s.itstate := by
  induction hu with
  | refl => rfl
  | setReg _ _ v ih => rw [State.setReg_itstate, ih]
  | setFlags _ _ ih => exact ih
  | store _ _ _ v ih => exact ih

theorem Updates.keeps (hu : Updates i s u) : (i.flagsWritten s.itstate.isEmpty).Keeps s.flags u.flags := by
  induction hu with
  | refl => exact .refl _ _
  | setReg _ _ v ih => rwa [State.setReg_flags]
  | setFlags _ hf _ => exact hf
  | store _ _ _ v ih => exact ih

theorem OwnEffect.reg (hu : OwnEffect i s u) {r : Reg} (hpc : r ≠ .pc) (hr : r ∉ i.dests) : u.reg r = s.reg r := by
  cases hu with
  | nothing => rfl
  | updates _ hu => exact hu.frame.regs r hpc hr
  | special rn q hi v => subst hi; exact writeSpecial_reg v s hpc hr

theorem OwnEffect.pc (hu : OwnEffect i s u) : u.pc = s.pc := by
  cases hu with
  | nothing => rfl
  | updates _ hu => exact hu.pc
  | special _ r _ v => exact writeSpecial_pc r v s

theorem OwnEffect.itstate (hu : OwnEffect i s u) : u.itstate = s.itstate := by
  cases hu with
  | nothing => rfl
  | updates _ hu => exact hu.itstate
  | special _ r _ v => exact writeSpecial_itstate r v s

theorem OwnEffect.keeps (hu : OwnEffect i s u) : (i.flagsWritten s.itstate.isEmpty).Keeps s.flags u.flags := by
  cases hu with
  | nothing => exact .refl _ _
  | updates _ hu => exact hu.keeps
  | special _ r _ v => rw [writeSpecial_flags]; exact .refl _ _

/-- Going on changes the PC and the IT state alone. -/
theorem GoesOn.eq_withPc (hg : GoesOn i u t) : t = { u with pc := t.pc, itstate := t.itstate } := by cases hg <;> rfl

theorem GoesOn.frame (hg : GoesOn i u t) {rs : List Reg} (h : Frame rs s u) : Frame rs s t := by
  rw [hg.eq_withPc]
  exact h.of_fields rfl rfl rfl rfl rfl rfl rfl rfl rfl rfl

theorem GoesOn.pc (hg : GoesOn i u t) (hw : i.writesPc = false) :
    Room (width i) u ∧ t.pc = u.pc + BitVec.ofNat 32 (width i) := by
  cases hg with
  | advance hroom => exact ⟨hroom, rfl⟩
  | jump hj => exact absurd hj (Bool.eq_false_iff.1 hw)
  | openBlock _ _ _ hroom => exact ⟨hroom, rfl⟩

theorem GoesOn.itstate (hg : GoesOn i u t) (hi : ∀ c mask, i ≠ .it c mask) : t.itstate = u.itstate.tail := by
  cases hg with
  | advance => rfl
  | jump => rfl
  | openBlock c mask h => exact absurd h (hi c mask)

end

/-- Nothing of the registers, the special registers and the parameters changes but by the write of a privileged Write function,
or by writes of the destinations of an instruction that is none. -/
theorem exec_frame {i : Instr} {s t : State} (h : exec i s = .next t) :
    Frame [] s t ∨ (i.isMsr = false ∧ Frame i.dests s t) ∨
      ∃ rn r v, i = msr rn r ∧ s.privileged = true ∧ Frame [] (writeSpecial r v s) t := by
  obtain ⟨u, hu, hg⟩ := exec_effect h
  cases hu with
  | nothing => exact .inl (hg.frame (.refl s _))
  | updates hm hu => exact .inr (.inl ⟨hm, hg.frame hu.frame⟩)
  | special rn r hi v =>
    cases hp : s.privileged
    case false =>
      rw [writeSpecial_unprivileged r v s hp] at hg
      exact .inl (hg.frame (.refl s _))
    case true => exact .inr (.inr ⟨rn, r, v, hi, rfl, hg.frame (.refl _ _)⟩)

/-- Settles O13, from what can change a special register at all (`exec_frame`). -/
theorem specialRegisterWriters : Obligations.SpecialRegisterWriters := by
  intro i s t h asSp
  obtain hf | ⟨hm, hf⟩ | ⟨rn, r, v, rfl, hp, hf⟩ := exec_frame h
  · exact ⟨.inl hf.primask, .inl hf.faultmask, .inl hf.basepri, .inl hf.control, .inl (hf.msp (.inl List.not_mem_nil)),
      .inl (hf.psp (.inl List.not_mem_nil)), hf.unalignTrp, hf.cfg⟩
  · have hnone : ∀ rn, i ≠ .setMsp rn ∧ i ≠ .setPsp rn ∧ i ≠ .setControl rn := fun rn =>
      ⟨ne_msr_of_isMsr hm rn .msp, ne_msr_of_isMsr hm rn .psp, ne_msr_of_isMsr hm rn .control⟩
    refine ⟨.inl hf.primask, .inl hf.faultmask, .inl hf.basepri, .inl hf.control, ?_, ?_, hf.unalignTrp, hf.cfg⟩
    · obtain hkept | ⟨hd, hu⟩ := hf.msp_cases
      · exact .inl hkept
      · exact .inr (.inr ⟨hu, hd, hnone⟩)
    · obtain hkept | ⟨hd, hu⟩ := hf.psp_cases
      · exact .inl hkept
      · exact .inr (.inr ⟨hu, hd, hnone⟩)
  · have hpriv : s.control.getLsbD 0 = false := by simpa [State.privileged] using hp
    have own {x y : Word} (q : SysReg) (hx : r ≠ q → x = y) :
        x = y ∨ s.control.getLsbD 0 = false ∧ ∃ rn', msr rn r = msr rn' q := by
      by_cases e : r = q
      · exact .inr ⟨hpriv, rn, e ▸ rfl⟩
      · exact .inl (hx e)
    obtain ⟨hprimask, hfaultmask, hbasepri, hcontrol, hmsp, hpsp⟩ := writeSpecial_others r v s
    rw [hf.primask, hf.faultmask, hf.basepri, hf.control, hf.msp (.inl List.not_mem_nil),
      hf.psp (.inl List.not_mem_nil), hf.unalignTrp, hf.cfg]
    exact ⟨own .primask hprimask, own .faultmask hfaultmask, own .basepri hbasepri, own .control hcontrol,
      (own .msp hmsp).imp_right .inl, (own .psp hpsp).imp_right .inl, writeSpecial_unalignTrp r v s,
      writeSpecial_cfg r v s⟩

/-- Settles O14: an instruction's own effect stays inside its destinations, and going on writes no register but the PC. -/
theorem registerFrame : Obligations.RegisterFrame := by
  intro i s t h r hpc hr
  obtain ⟨u, hu, hg⟩ := exec_effect h
  rw [hg.eq_withPc, State.reg_withPc u _ _ hpc, hu.reg hpc hr]

/-- Settles O15: an instruction's own effect keeps the flags that are not its own, and going on keeps all. -/
theorem flagFrame : Obligations.FlagFrame := by
  intro i s t h
  obtain ⟨u, hu, hg⟩ := exec_effect h
  have hkeeps := hu.keeps
  rw [hg.eq_withPc]
  cases hf : i.flagsWritten s.itstate.isEmpty
  all_goals rw [hf] at hkeeps; exact hkeeps

/-- Settles O17: an instruction's own effect leaves the PC and the IT state to the way it goes on. -/
theorem programCounterFrame : Obligations.ProgramCounterFrame := by
  intro i s t h
  obtain ⟨u, hu, hg⟩ := exec_effect h
  refine ⟨fun hw => ?_, fun hi => ?_⟩
  · have hpc := hg.pc hw
    rwa [Room, hu.pc] at hpc
  · rw [hg.itstate hi, hu.itstate]

end Sys2Proof.Machine
end

section
/-! SUPPORT. Memory: what is read of a value stored, memories as data, and the frame of every instruction on memory (20_memory
R60, R67, R68, R70). -/

namespace Sys2Proof.Machine

/-! ## Reads of a value stored -/

/-- The bytes read inside a store are a field of the value stored, the lowest address first. -/
theorem Memory.leNat_readBytes_writeLe {m : Memory} {a w : Nat} (v : Word) (hm : m.wf = true) (ha : a + w ≤ addressCount)
    {k n : Nat} (hk : k + n ≤ w) :
    leNat ((m.writeLe a w v).readBytes (a + k) n) = v.toNat / 2 ^ (8 * k) % 2 ^ (8 * n) := by
  induction n generalizing k with
  | zero => simp [Memory.readBytes, leNat, Nat.mod_one]
  | succ n ih =>
    have hbyte : ((m.writeLe a w v).read (a + k)).toNat = v.toNat / 2 ^ (8 * k) % 2 ^ 8 := by
      rw [Memory.read_writeLe_of_inside v hm ha (by omega), BitVec.extractLsb'_toNat, Nat.shiftRight_eq_div_pow]
    have hrest : leNat ((m.writeLe a w v).readBytes (a + k + 1) n) = v.toNat / 2 ^ (8 * k) / 2 ^ 8 % 2 ^ (8 * n) := by
      rw [Nat.add_assoc, ih (by omega), Nat.div_div_eq_div_mul, ← pow_add, Nat.mul_succ]
    rw [Memory.readBytes, leNat, show 256 = 2 ^ 8 from rfl, hbyte, hrest, Nat.mul_succ, Nat.add_comm (8 * n), pow_add,
      Nat.mod_mul]

/-- A read of `n` bytes inside a store of `v` gives the field of `v` that begins `k` bytes up (20_memory R68, R70). -/
theorem Memory.readLe_writeLe {m : Memory} {a w : Nat} (v : Word) (hm : m.wf = true) (ha : a + w ≤ addressCount) {k n : Nat}
    (hk : k + n ≤ w) :
    (m.writeLe a w v).readLe (a + k) n = BitVec.ofNat 32 (v.toNat / 2 ^ (8 * k) % 2 ^ (8 * n)) := by
  rw [Memory.readLe, Memory.leNat_readBytes_writeLe v hm ha hk]

/-- A word under a mask of its low `n` bits. -/
theorem and_lowMask (v : Word) (n : Nat) (hn : n ≤ 32) :
    v &&& BitVec.ofNat 32 (2 ^ n - 1) = BitVec.ofNat 32 (v.toNat % 2 ^ n) := by
  have hmask : 2 ^ n - 1 < 2 ^ 32 := by
    have := Nat.pow_le_pow_right (show 0 < 2 by decide) hn
    omega
  apply BitVec.eq_of_toNat_eq
  rw [BitVec.toNat_and, BitVec.toNat_ofNat, BitVec.toNat_ofNat, Nat.mod_eq_of_lt hmask, Nat.and_two_pow_sub_one_eq_mod,
    Nat.mod_eq_of_lt (lt_of_le_of_lt (Nat.mod_le _ _) v.isLt)]

/-- Settles O41: each read is a field of the word stored (`Memory.readLe_writeLe`), and what is outside is not written. -/
theorem byteOrder : Obligations.ByteOrder := by
  intro m a v hm ha
  have field {k n : Nat} (hk : k + n ≤ 4) := Memory.readLe_writeLe v hm ha hk
  refine ⟨(field (k := 0) (n := 4) (by decide)).trans ?_, (field (k := 0) (n := 1) (by decide)).trans ?_,
    (field (k := 1) (n := 2) (by decide)).trans ?_, (field (k := 2) (n := 2) (by decide)).trans ?_,
    fun b hb => Memory.read_writeLe_of_outside m v hb⟩
  · exact BitVec.eq_of_toNat_eq (by simpa using v.isLt)
  · simpa using (and_lowMask v 8 (by decide)).symm
  · simpa [Nat.shiftRight_eq_div_pow] using (and_lowMask (v >>> 8) 16 (by decide)).symm
  · have htop : v.toNat / 65536 < 65536 := by have := v.isLt; omega
    apply BitVec.eq_of_toNat_eq
    simp [Nat.shiftRight_eq_div_pow, Nat.mod_eq_of_lt htop]
    omega

/-! ## Memories as data -/

theorem Memory.wfFrom_cons {low k : Nat} {b : Byte} {m : Memory} :
    Memory.wfFrom low ((k, b) :: m) = true ↔
      low ≤ k ∧ k < addressCount ∧ b ≠ Memory.unlisted ∧ Memory.wfFrom (k + 1) m = true := by
  simp [Memory.wfFrom, and_assoc]

theorem Memory.read_cons_self (k : Nat) (b : Byte) (m : Memory) : Memory.read ((k, b) :: m) k = b := if_pos rfl

theorem Memory.read_cons_of_ne {a k : Nat} (b : Byte) (m : Memory) (h : a ≠ k) :
    Memory.read ((k, b) :: m) a = Memory.read m a := if_neg h

/-- What does not read as unlisted lies at or above the first address of the list. -/
theorem Memory.head_le_of_read {low a k : Nat} {b : Byte} {m : Memory} (h : Memory.wfFrom low ((k, b) :: m) = true)
    (ha : Memory.read ((k, b) :: m) a ≠ Memory.unlisted) : k ≤ a := by
  obtain ⟨-, hk, hb, hm⟩ := Memory.wfFrom_cons.1 h
  exact not_lt.1 fun hlt => ha (Memory.read_below (Memory.wfFrom_cons.2 ⟨le_rfl, hk, hb, hm⟩) hlt)

/-- Memories in canonical form that read alike are the same list: their first addresses bound each other, and what follows
reads alike as well. -/
theorem Memory.eq_of_read_eq {m m' : Memory} {low low' : Nat} (h : m.wfFrom low = true) (h' : m'.wfFrom low' = true)
    (hread : ∀ a, m.read a = m'.read a) : m = m' := by
  induction m generalizing m' low low' with
  | nil =>
    cases m' with
    | nil => rfl
    | cons p rest' =>
      obtain ⟨k', b'⟩ := p
      obtain ⟨-, -, hb', -⟩ := Memory.wfFrom_cons.1 h'
      exact absurd ((Memory.read_cons_self k' b' rest').symm.trans (hread k').symm) hb'
  | cons p rest ih =>
    obtain ⟨k, b⟩ := p
    obtain ⟨-, -, hb, hrest⟩ := Memory.wfFrom_cons.1 h
    have hk := Memory.read_cons_self k b rest
    cases m' with
    | nil => exact absurd (hk.symm.trans (hread k)) hb
    | cons p' rest' =>
      obtain ⟨k', b'⟩ := p'
      obtain ⟨-, -, hb', hrest'⟩ := Memory.wfFrom_cons.1 h'
      have hk' := Memory.read_cons_self k' b' rest'
      obtain rfl : k = k' := le_antisymm (Memory.head_le_of_read h (by rwa [hread, hk']))
        (Memory.head_le_of_read h' (by rwa [← hread, hk]))
      obtain rfl : b = b' := hk.symm.trans ((hread k).trans hk')
      have htail (a : Nat) : Memory.read rest a = Memory.read rest' a := by
        by_cases ha : a = k
        · rw [Memory.read_below hrest (by omega), Memory.read_below hrest' (by omega)]
        · rw [← Memory.read_cons_of_ne b rest ha, hread, Memory.read_cons_of_ne b rest' ha]
      rw [ih hrest hrest' htail]

/-- Settles O42: canonical memories that read alike are equal by induction on the list, and a store keeps the form. -/
theorem memoryCanonical : Obligations.MemoryCanonical :=
  ⟨fun _ _ hm hm' hread => Memory.eq_of_read_eq hm hm' hread, fun _ _ _ _ hm ha => Memory.writeLe_wf hm ha⟩

/-! ## The frame on memory -/

/-- The byte at `b` is none of those that `i` stores to from `s`. -/
def OutsideStores (i : Instr) (s : State) (b : Nat) : Prop := ∀ a n, i.storesTo s = some (a, n) → b < a ∨ a + n ≤ b

section
variable {i : Instr} {s u t : State} {b : Nat}

theorem Updates.read (hu : Updates i s u) (hb : OutsideStores i s b) : u.mem.read b = s.mem.read b := by
  induction hu with
  | refl => rfl
  | setReg _ _ v ih => rw [State.setReg_mem, ih]
  | setFlags _ _ ih => exact ih
  | store _ hs _ v ih => exact (Memory.read_writeLe_of_outside _ v (hb _ _ hs)).trans ih

theorem OwnEffect.read (hu : OwnEffect i s u) (hb : OutsideStores i s b) : u.mem.read b = s.mem.read b := by
  cases hu with
  | nothing => rfl
  | updates _ hu => exact hu.read hb
  | special _ r _ v => rw [writeSpecial_mem]

/-- Only an instruction's stores change memory. -/
theorem exec_read (h : exec i s = .next t) (hb : OutsideStores i s b) : t.mem.read b = s.mem.read b := by
  obtain ⟨u, hu, hg⟩ := exec_effect h
  rw [hg.eq_withPc]
  exact hu.read hb

end

/-- Settles O16: an instruction changes no byte but those it stores to (`exec_read`). -/
theorem memoryFrame : Obligations.MemoryFrame := by
  intro i s t h
  split
  next hnone =>
    refine fun b => exec_read h fun a n hs => ?_
    rw [hnone] at hs
    cases hs
  next a n hsome =>
    refine fun b hb => exec_read h fun a' n' hs => ?_
    rw [hsome] at hs
    cases hs
    exact hb

end Sys2Proof.Machine
end

section
/-! SUPPORT. Single accesses and multiple loads: the order of the checks an access makes, said once, and which of them stops it
(20_memory R62 to R67, R70, R72, R77; 60_exceptions R275). -/

namespace Sys2Proof.Machine

theorem andThen_assoc {α β γ : Type} (x : Attempt α) (f : α → Attempt β) (g : β → Attempt γ) :
    andThen (andThen x f) g = andThen x fun a => andThen (f a) g := by
  cases x <;> rfl

/-! ## Alignment (20_memory R62) -/

/-- A word whose bits[1:0] are zero is a multiple of 4. -/
theorem toNat_mod_four_of_and_three {v : Word} (h : v &&& 3#32 = 0#32) : v.toNat % 4 = 0 := by
  have hbits : v.toNat &&& (2 ^ 2 - 1) = 0 := congrArg BitVec.toNat h
  rwa [Nat.and_two_pow_sub_one_eq_mod] at hbits

/-- SP is word-aligned (10_state R21). -/
theorem State.sp_aligned (s : State) : s.sp.toNat % 4 = 0 := toNat_mod_four_of_and_three (stackAligned_and_three _)

/-- `Aligned` asks a multiple of `n` of the address of an access of this class (20_memory R62). -/
def AccessClass.AlignsTo (cls : AccessClass) (n : Nat) : Prop := ∀ a, aligned a cls = decide (a.toNat % n = 0)

theorem AccessClass.word_alignsTo : AccessClass.word.AlignsTo 4 := fun _ => rfl

theorem AccessClass.halfword_alignsTo : AccessClass.halfword.AlignsTo 2 := fun _ => rfl

section
variable {ok : Bool} {cls : AccessClass} {n : Nat} {a : Word} {s : State}

/-- The alignment check of an instruction of `UnalignedOK` passes where the access is not trapped. -/
theorem checkAlign_of_alignOk (hcls : cls.AlignsTo n) (h : AlignOk n a s) : checkAlign true cls a s = .next () :=
  checkAlign_eq_next.2 (by simpa [hcls a, AlignOk] using h)

/-- The alignment check of an unaligned access traps where nothing lets it pass. -/
theorem checkAlign_of_unaligned (hcls : cls.AlignsTo n) (h : a.toNat % n ≠ 0)
    (htrap : ok = false ∨ s.unalignTrp = true ∨ s.cfg.supportsUnaligned a.toNat = false) :
    checkAlign ok cls a s = .fault (.usageFault (.unaligned a) s.pc) :=
  checkAlign_eq_fault.2 ⟨by simpa [hcls a] using h, htrap, rfl⟩

end

/-! ## The checks after the alignment check -/

/-- What a load or store of `n` bytes at `a` asks of the address space, the program text and the launch memory, in this order
(20_memory R67, R77, R72). -/
def accessCheck (acc : Access) (a n : Nat) (s : State) : Attempt Unit :=
  if addressCount < a + n then .refused .addressTop
  else if decide (acc = .write) && s.cfg.touchesText a n then .refused (.textStore a)
  else if !s.cfg.admits acc a n then .fault (.stuck acc a)
  else .next ()

theorem readAt_eq (a n : Nat) (s : State) :
    readAt a n s = andThen (accessCheck .read a n s) fun _ => .next (s.mem.readLe a n) := by
  simp only [readAt, accessCheck, reduceCtorEq, decide_false, Bool.false_and, Bool.false_eq_true, if_false]
  repeat' split
  all_goals rfl

theorem writeAt_eq (a n : Nat) (v : Word) (s : State) :
    writeAt a n v s = andThen (accessCheck .write a n s) fun _ => .next { s with mem := s.mem.writeLe a n v } := by
  simp only [writeAt, accessCheck, decide_true, Bool.true_and]
  repeat' split
  all_goals rfl

section
variable {acc : Access} {a n : Nat} {s : State}

theorem accessCheck_of_top (h : addressCount < a + n) : accessCheck acc a n s = .refused .addressTop := if_pos h

theorem accessCheck_of_text (h : a + n ≤ addressCount) (hacc : acc = .write) (htext : s.cfg.touchesText a n = true) :
    accessCheck acc a n s = .refused (.textStore a) := by
  rw [accessCheck, if_neg (not_lt.2 h), if_pos (by simp [hacc, htext])]

theorem accessCheck_of_unadmitted (h : a + n ≤ addressCount) (htext : acc = .write → s.cfg.touchesText a n = false)
    (hadm : s.cfg.admits acc a n = false) : accessCheck acc a n s = .fault (.stuck acc a) := by
  have hnot : ¬(decide (acc = .write) && s.cfg.touchesText a n) = true := by simpa using htext
  rw [accessCheck, if_neg (not_lt.2 h), if_neg hnot, if_pos (by simp [hadm])]

end

/-! ## Single loads and stores -/

/-- The outcome `r` of `i` from `s` is that of one access of `n` bytes at `a`, in the order of 60_exceptions R275: the
alignment check, for a load of the PC the refusal of 43_load_store R226, the other checks, and then whatever `i` does. -/
def MakesAccess (i : Instr) (s : State) (acc : Access) (a : Word) (n : Nat) (r : Result) : Prop :=
  ∃ cls, AccessClass.AlignsTo cls n ∧ ∃ rest, r = andThen (checkAlign true cls a s) fun _ =>
    if i.loadsPc && !aligned a .word then .refused .unalignedPcLoad else andThen (accessCheck acc a.toNat n s) rest

section
variable {i : Instr} {s : State} {acc : Access} {a : Word} {n : Nat} {r : Result}

/-- An unaligned access that is trapped. -/
theorem MakesAccess.eq_unaligned (h : MakesAccess i s acc a n r) (ha : a.toNat % n ≠ 0)
    (htrap : s.unalignTrp = true ∨ s.cfg.supportsUnaligned a.toNat = false) :
    r = .fault (.usageFault (.unaligned a) s.pc) := by
  obtain ⟨cls, hcls, rest, rfl⟩ := h
  rw [checkAlign_of_unaligned hcls ha (.inr htrap), andThen_fault]

/-- An access that passes the alignment check and is no load of the PC from an unaligned address. -/
theorem MakesAccess.eq_andThen (h : MakesAccess i s acc a n r) (hal : AlignOk n a s)
    (hpc : i.loadsPc = true → a.toNat % 4 = 0) : ∃ rest, r = andThen (accessCheck acc a.toNat n s) rest := by
  obtain ⟨cls, hcls, rest, rfl⟩ := h
  have hpc' : ¬(i.loadsPc && !aligned a .word) = true := by simpa [AccessClass.word_alignsTo a] using hpc
  exact ⟨rest, by rw [checkAlign_of_alignOk hcls hal, andThen_next, if_neg hpc']⟩

variable {rt : Reg} {form : AddrForm}

theorem loadWord_makesAccess (hc : conditionPassed .al s = true) (hw : i.wellFormed = true)
    (hl : i.loadsPc = decide (rt = .pc)) (hp : i.loadsPc = true → s.itstate.length ≤ 1) :
    MakesAccess i s .read (form.address s) 4 (loadWord i rt form s) := by
  have hplace : (if rt = .pc then Placement.lastOfBlock else .anywhere).holds s = true := by
    split
    next hpc => exact decide_eq_true (hp (hl.trans (decide_eq_true hpc)))
    next => rfl
  refine ⟨.word, AccessClass.word_alignsTo, fun _ =>
    if rt = .pc then loadWritePc (s.mem.readLe (form.address s).toNat 4) s (s.writeBack (form.writeback s))
    else retire i ((s.writeBack (form.writeback s)).setReg rt (s.mem.readLe (form.address s).toNat 4)), ?_⟩
  rw [loadWord, conditionalAs_passed hc hw hplace, hl]
  simp only [readAt_eq, andThen_assoc, andThen_next]

theorem loadHalf_makesAccess {ext : Extend} (hc : conditionPassed .al s = true) (hw : i.wellFormed = true)
    (hl : i.loadsPc = false) : MakesAccess i s .read (form.address s) 2 (loadHalf i rt form ext s) := by
  refine ⟨.halfword, AccessClass.halfword_alignsTo, fun _ =>
    retire i ((s.writeBack (form.writeback s)).setReg rt (extendHalf ext (s.mem.readLe (form.address s).toNat 2))), ?_⟩
  rw [loadHalf, conditional, conditionalAs_passed hc hw rfl, hl]
  simp only [memRead, readAt_eq, andThen_assoc, andThen_next, Bool.false_and, Bool.false_eq_true, if_false]

theorem store_makesAccess {cls : AccessClass} (hc : conditionPassed .al s = true) (hw : i.wellFormed = true)
    (hl : i.loadsPc = false) (hcls : cls.AlignsTo n) :
    MakesAccess i s .write (form.address s) n (store i rt form cls n s) := by
  refine ⟨cls, hcls, fun _ => retire i (State.writeBack
    { s with mem := s.mem.writeLe (form.address s).toNat n (s.reg rt) } (form.writeback s)), ?_⟩
  rw [store, conditional, conditionalAs_passed hc hw rfl, hl]
  simp only [memWrite, writeAt_eq, andThen_assoc, andThen_next, Bool.false_and, Bool.false_eq_true, if_false]

end

/-- A single load or store in a place where it may stand makes the access that `Instr.accesses` gives, by family of
instructions. -/
theorem exec_makesAccess {i : Instr} {s : State} {acc : Access} {a : Word} {n : Nat} (h : i.accesses s = some (acc, a, n))
    (hr : Ready i s) (hp : i.loadsPc = true → s.itstate.length ≤ 1) : MakesAccess i s acc a n (exec i s) := by
  obtain ⟨hc, hw⟩ := hr
  cases i
  case ldrLit16 rt _ | ldrReg16 rt _ _ | ldrImm16 rt _ _ | ldrSp16 rt _ =>
    cases h
    exact loadWord_makesAccess hc hw (decide_eq_false rt.reg_ne_pc).symm hp
  case ldrImm12 | ldrNeg8 | ldrPre | ldrPost | ldrt | ldrReg32 | ldrLit32 =>
    cases h
    exact loadWord_makesAccess hc hw rfl hp
  case ldrhReg16 | ldrshReg16 | ldrhImm16 | ldrhImm12 | ldrhNeg8 | ldrhPre | ldrhPost | ldrht | ldrhReg32 | ldrhLit32 |
      ldrshImm12 | ldrshNeg8 | ldrshPre | ldrshPost | ldrsht | ldrshReg32 | ldrshLit32 =>
    cases h
    exact loadHalf_makesAccess hc hw rfl
  case strReg16 | strImm16 | strSp16 | strImm12 | strNeg8 | strPre | strPost | strt | strReg32 =>
    cases h
    exact store_makesAccess hc hw rfl AccessClass.word_alignsTo
  case strhReg16 | strhImm16 | strhImm12 | strhNeg8 | strhPre | strhPost | strht | strhReg32 =>
    cases h
    exact store_makesAccess hc hw rfl AccessClass.halfword_alignsTo
  -- the others make no single access
  all_goals cases h

/-- Settles O50: after the alignment check only the three other checks are left, in the order of `accessCheck`. -/
theorem unadmittedAccess : Obligations.UnadmittedAccess := by
  intro i s acc a n h hr hal hp
  obtain ⟨rest, hexec⟩ := (exec_makesAccess h hr fun hl => (hp hl).1).eq_andThen hal fun hl => (hp hl).2
  rw [hexec]
  refine ⟨fun htop => ?_, fun hin hacc htext => ?_, fun hin htext hadm => ?_⟩
  · rw [accessCheck_of_top htop, andThen_refused]
  · rw [accessCheck_of_text hin hacc htext, andThen_refused]
  · rw [accessCheck_of_unadmitted hin htext hadm, andThen_fault]

/-! ## Multiple loads -/

/-- A list has one register for each of its bits, and LR. -/
theorem regList_length (list : BitVec 13) (m : Bool) : (regList list m).length = rank list 13 + m.toNat := by
  cases m <;> simp [regList, rank]

/-- The number of bytes a multiple load reads, from the bits of its list. -/
theorem multipleBytes_regList (list : BitVec 13) (p m : Bool) :
    multipleBytes (regList list m) p = 4 * (rank list 13 + m.toNat + p.toNat) := by
  rw [multipleBytes, regList_length]

section
variable {i : Instr} {s : State} {regs : List Reg} {toPc : Bool} {start : Word} {wb : Option (Reg × Word)}

/-- A multiple load is not in `UnalignedOK`: an unaligned start address always traps (20_memory R64). -/
theorem loadMultiple_of_unaligned (hc : conditionPassed .al s = true) (hw : i.wellFormed = true)
    (hp : toPc = true → s.itstate.length ≤ 1) (ha : start.toNat % 4 ≠ 0) :
    loadMultiple i regs toPc start wb s = .fault (.usageFault (.unaligned start) s.pc) := by
  have hplace : (if toPc then Placement.lastOfBlock else .anywhere).holds s = true := by
    cases toPc
    case false => rfl
    case true => exact decide_eq_true (hp rfl)
  have hcls : AccessClass.multiword.AlignsTo 4 := fun _ => rfl
  rw [loadMultiple, conditionalAs_passed hc hw hplace, checkAlign_of_unaligned hcls ha (.inl rfl), andThen_fault]

/-- The reading of consecutive words faults only by being stuck at one of them. -/
theorem readWords_eq_fault {k a : Nat} {r : Fault} (h : readWords k a s = .fault r) : ∃ b, r = .stuck .read b := by
  induction k generalizing a with
  | zero => cases h
  | succ k ih =>
    obtain h | ⟨_, -, h⟩ := andThen_eq_fault.1 h
    · obtain ⟨-, -, hr⟩ := readAt_eq_fault.1 h
      exact ⟨a, hr⟩
    · obtain h | ⟨_, -, h⟩ := andThen_eq_fault.1 h
      · exact ih h
      · cases h

/-- What a multiple load from an aligned address faults with: a stuck read, or the bit[0] of the word for the PC. -/
theorem loadMultiple_eq_fault {r : Fault} (ha : start.toNat % 4 = 0)
    (h : loadMultiple i regs toPc start wb s = .fault r) :
    (∃ b, r = .stuck .read b) ∨ r = .usageFault .invstate s.pc := by
  obtain ⟨-, h⟩ := conditionalAs_eq_fault h
  obtain h | ⟨-, -, h⟩ := andThen_eq_fault.1 h
  · exact absurd ha (of_decide_eq_false (checkAlign_eq_fault.1 h).1)
  obtain h | ⟨vs, -, h⟩ := andThen_eq_fault.1 h
  · exact .inl (readWords_eq_fault h)
  split at h
  · obtain h | ⟨v, -, h⟩ := andThen_eq_fault.1 h
    · obtain ⟨-, -, hr⟩ := readAt_eq_fault.1 h
      exact .inl ⟨_, hr⟩
    · exact .inr (loadWritePc_eq_fault.1 h).2
  · exact absurd h (retire_ne_fault _ _ _)

theorem loadMultiple_ne_unaligned (ha : start.toNat % 4 = 0) (a q : Word) :
    loadMultiple i regs toPc start wb s ≠ .fault (.usageFault (.unaligned a) q) := fun h => by
  obtain ⟨b, hr⟩ | hr := loadMultiple_eq_fault ha h <;> cases hr

end

/-- Settles O49: the access of a single load or store begins with the alignment check, a multiple load's check has no exception,
and POP's start address is SP. -/
theorem unalignedFaults : Obligations.UnalignedFaults := by
  refine ⟨fun i s acc a n h hr hp ha htrap => (exec_makesAccess h hr hp).eq_unaligned ha htrap,
    fun s rn list hr ha => loadMultiple_of_unaligned hr.1 hr.2 nofun ha, ?_, ?_⟩
  · intro s before w rn p m list i k start hr hp ha
    cases before
    case false => exact loadMultiple_of_unaligned hr.1 hr.2 hp ha
    case true =>
      have hstart : start = s.reg rn - BitVec.ofNat 32 (multipleBytes (regList list m) p) := by
        rw [multipleBytes_regList]; rfl
      rw [hstart] at ha ⊢
      exact loadMultiple_of_unaligned hr.1 hr.2 hp ha
  · intro s p m list8 list13 rt a q
    refine ⟨loadMultiple_ne_unaligned s.sp_aligned a q, loadMultiple_ne_unaligned s.sp_aligned a q, ?_⟩
    change (if rt = .pc then _ else _) ≠ _
    split
    · exact loadMultiple_ne_unaligned s.sp_aligned a q
    · exact loadMultiple_ne_unaligned s.sp_aligned a q

end Sys2Proof.Machine
end

section
/-! SUPPORT. Fetches that are refused (20_memory R69; 10_state R26; 30_encoding R93). -/

namespace Sys2Proof.Machine

/-! ## The first halfword (30_encoding R93) -/

/-- A halfword has its low byte at the lower address (20_memory R68). -/
theorem halfOfBytes_eq_append (lo hi : Byte) : halfOfBytes lo hi = hi ++ lo := by
  have hlo := lo.isLt
  apply BitVec.eq_of_toNat_eq
  rw [halfOfBytes, BitVec.toNat_ofNat, BitVec.toNat_append, ← Nat.shiftLeft_add_eq_or_of_lt hlo, Nat.shiftLeft_eq]
  omega

/-- A halfword begins a 32-bit instruction where its bits[15:11] are 11101, 11110 or 11111. -/
theorem is32_iff (h : Half) : is32 h = true ↔ h.extractLsb' 11 5 ∈ [0b11101#5, 0b11110#5, 0b11111#5] := by
  have hfield : bits h 11 5 = (h.extractLsb' 11 5).toNat := by
    rw [BitVec.extractLsb'_toNat, Nat.shiftRight_eq_div_pow, bits]
  have hlt := (h.extractLsb' 11 5).isLt
  rw [is32, decide_eq_true_iff, hfield]
  simp only [List.mem_cons, List.not_mem_nil, or_false, ← BitVec.toNat_inj, BitVec.toNat_ofNat]
  omega

/-! ## Refusals -/

theorem fetchAt_of_top {a n : Nat} {s : State} (h : addressCount < a + n) : fetchAt a n s = .refused .addressTop := if_pos h

theorem fetchAt_of_unadmitted {a n : Nat} {s : State} (h : a + n ≤ addressCount) (hadm : s.cfg.admits .fetch a n = false) :
    fetchAt a n s = .refused (.fetchNotAdmitted a) := by
  rw [fetchAt, if_neg (not_lt.2 h), hadm]
  rfl

section
variable {s : State} {r : Refusal}

/-- A step whose first fetch is refused. -/
theorem step_of_first_refused (hrun : s.pc ≠ s.cfg.haltAddr) (h : fetchAt s.pc.toNat 2 s = .refused r) :
    step s = .refused r := by
  rw [step_of_running hrun, fetchInstr, fetchBytes, h]
  rfl

/-- A step whose first halfword begins a 32-bit instruction and whose second fetch is refused. -/
theorem step_of_second_refused (hrun : s.pc ≠ s.cfg.haltAddr) (htop : s.pc.toNat + 2 ≤ addressCount)
    (hadm : s.cfg.admits .fetch s.pc.toNat 2 = true)
    (hwide : (halfAt s.mem s.pc.toNat).extractLsb' 11 5 ∈ [0b11101#5, 0b11110#5, 0b11111#5])
    (h : fetchAt (s.pc.toNat + 2) 2 s = .refused r) : step s = .refused r := by
  have hfirst : fetchAt s.pc.toNat 2 s = .next [s.mem.read s.pc.toNat, s.mem.read (s.pc.toNat + 1)] :=
    fetchAt_eq_next.2 ⟨htop, hadm, rfl⟩
  have hw : is32 (halfOfBytes (s.mem.read s.pc.toNat) (s.mem.read (s.pc.toNat + 1))) = true := by
    rw [halfOfBytes_eq_append, is32_iff]
    exact hwide
  simp [step_of_running hrun, fetchInstr, fetchBytes, hfirst, hw, h]

end

/-- Settles O8: the step is refused with its first fetch, or with its second where the first halfword asks for one. -/
theorem fetchRefused : Obligations.FetchRefused := by
  refine fun s hrun => ⟨fun hpc => ?_, fun htop hadm => ?_,
    fun htop hadm hwide => ⟨fun htop' => ?_, fun htop' hadm' => ?_⟩⟩
  · exact step_of_first_refused hrun (fetchAt_of_top (by rw [hpc]; decide))
  · exact step_of_first_refused hrun (fetchAt_of_unadmitted htop hadm)
  · exact step_of_second_refused hrun htop hadm hwide (fetchAt_of_top htop')
  · exact step_of_second_refused hrun htop hadm hwide (fetchAt_of_unadmitted htop' hadm')

end Sys2Proof.Machine
end

section
/-! SUPPORT. Bit fields of a halfword: packing fields and reading them back (30_encoding section 7). -/

namespace Sys2Proof

/-- A field of `w` bits is less than `2 ^ w`. -/
theorem bits_lt (h : Half) (lo w : Nat) : bits h lo w < 2 ^ w := Nat.mod_lt _ (Nat.two_pow_pos w)

/-- A field is its upper part and its lower part. -/
theorem bits_add (h : Half) (lo v w : Nat) : bits h lo (v + w) = bits h (lo + v) w * 2 ^ v + bits h lo v := by
  simp only [bits, Nat.pow_add, Nat.mod_mul, Nat.div_div_eq_div_mul]
  rw [Nat.mul_comm, Nat.add_comm]

/-- A field inside a field. -/
theorem bits_inner (h : Half) {lo k w v : Nat} (hv : k + w ≤ v) :
    bits h (lo + k) w = bits h lo v / 2 ^ k % 2 ^ w := by
  obtain ⟨r, rfl⟩ := Nat.exists_eq_add_of_le hv
  rw [Nat.add_assoc, bits_add, bits_add, Nat.mul_comm, Nat.mul_add_div (Nat.two_pow_pos k),
    Nat.div_eq_of_lt (bits_lt h lo k), Nat.add_zero, Nat.mul_comm, Nat.mul_add_mod, Nat.mod_eq_of_lt (bits_lt h _ w)]

/-- The lower part of a field. -/
theorem bits_low (h : Half) {lo w v : Nat} (hv : w ≤ v) : bits h lo w = bits h lo v % 2 ^ w := by
  simpa using bits_inner h (lo := lo) (k := 0) (by simpa using hv)

/-- The number that packing fields gives before it is cut to 16 bits. -/
def fieldsValue (fs : List (Nat × Nat)) (n : Nat) : Nat := fs.foldl (fun acc f => acc * 2 ^ f.1 + f.2) n

/-- The width of fields in a row. -/
def fieldsWidth (fs : List (Nat × Nat)) : Nat := (fs.map Prod.fst).sum

/-- The halfword `h` has the fields `fs` in its lowest bits, the most significant field first. -/
def HasFields (h : Half) (fs : List (Nat × Nat)) : Prop :=
  match fs with
  | [] => True
  | f :: fs => bits h (fieldsWidth fs) f.1 = f.2 ∧ HasFields h fs

theorem fieldsWidth_cons (f : Nat × Nat) (fs : List (Nat × Nat)) : fieldsWidth (f :: fs) = fieldsWidth fs + f.1 := by
  simp [fieldsWidth, Nat.add_comm]

/-- Packing puts each field above the ones after it. -/
theorem fieldsValue_eq_add (fs : List (Nat × Nat)) (n : Nat) :
    fieldsValue fs n = n * 2 ^ fieldsWidth fs + fieldsValue fs 0 := by
  induction fs generalizing n with
  | nil => simp [fieldsWidth, fieldsValue]
  | cons f fs ih =>
    change fieldsValue fs (n * 2 ^ f.1 + f.2) = _ + fieldsValue fs (0 * 2 ^ f.1 + f.2)
    rw [ih, ih (0 * 2 ^ f.1 + f.2), fieldsWidth_cons, Nat.pow_add]
    ring

theorem fieldsValue_cons (f : Nat × Nat) (fs : List (Nat × Nat)) :
    fieldsValue (f :: fs) 0 = f.2 * 2 ^ fieldsWidth fs + fieldsValue fs 0 := by
  rw [← fieldsValue_eq_add, fieldsValue, List.foldl_cons, Nat.zero_mul, Nat.zero_add, fieldsValue]

theorem fieldsValue_lt {fs : List (Nat × Nat)} (hfs : ∀ f ∈ fs, f.2 < 2 ^ f.1) :
    fieldsValue fs 0 < 2 ^ fieldsWidth fs := by
  induction fs with
  | nil => simp [fieldsWidth, fieldsValue]
  | cons f fs ih =>
    obtain ⟨hf, hfs⟩ := List.forall_mem_cons.1 hfs
    rw [fieldsValue_cons, fieldsWidth_cons, Nat.pow_add]
    nlinarith [ih hfs, Nat.mul_le_mul_right (2 ^ fieldsWidth fs) (Nat.succ_le_of_lt hf)]

/-- The lowest bits of a halfword are those of the packed fields exactly if it has each field. -/
theorem bits_eq_fieldsValue_iff {h : Half} {fs : List (Nat × Nat)} (hfs : ∀ f ∈ fs, f.2 < 2 ^ f.1) :
    bits h 0 (fieldsWidth fs) = fieldsValue fs 0 ↔ HasFields h fs := by
  induction fs with
  | nil => simp [fieldsWidth, fieldsValue, HasFields, bits, Nat.mod_one]
  | cons f fs ih =>
    obtain ⟨-, hfs⟩ := List.forall_mem_cons.1 hfs
    have hlow := bits_lt h 0 (fieldsWidth fs)
    have hval := fieldsValue_lt hfs
    rw [fieldsWidth_cons, fieldsValue_cons, bits_add, Nat.zero_add, HasFields, ← ih hfs]
    refine ⟨fun heq => ?_, fun ⟨hf, hfs⟩ => by rw [hf, hfs]⟩
    rw [Nat.mul_comm, Nat.mul_comm f.2] at heq
    have hmod := congrArg (· % 2 ^ fieldsWidth fs) heq
    have hdiv := congrArg (· / 2 ^ fieldsWidth fs) heq
    simp only [Nat.mul_add_mod, Nat.mod_eq_of_lt hlow, Nat.mod_eq_of_lt hval] at hmod
    simp only [Nat.mul_add_div (Nat.two_pow_pos _), Nat.div_eq_of_lt hlow, Nat.div_eq_of_lt hval] at hdiv
    exact ⟨hdiv, hmod⟩

/-- A halfword is the pack of fields that fill it exactly if it has each of them. -/
theorem pack_eq_iff {h : Half} {fs : List (Nat × Nat)} (hw : fieldsWidth fs = 16) (hfs : ∀ f ∈ fs, f.2 < 2 ^ f.1) :
    pack fs = h ↔ HasFields h fs := by
  have hval := hw ▸ fieldsValue_lt hfs
  rw [← bits_eq_fieldsValue_iff hfs, hw, ← BitVec.toNat_inj, pack, BitVec.toNat_ofNat, bits]
  change fieldsValue fs 0 % _ = _ ↔ _
  rw [Nat.mod_eq_of_lt hval, Nat.pow_zero, Nat.div_one, Nat.mod_eq_of_lt h.isLt, eq_comm]

end Sys2Proof
end

section
/-! SUPPORT. The names that fields stand for: registers, conditions, shift types, special registers and immediates
(30_encoding R100 to R102, R116). -/

namespace Sys2Proof

/-! ## Names and numbers -/

theorem LowReg.num_lt (r : LowReg) : r.num < 8 := by cases r <;> decide

theorem LowReg.ofNum_eq_iff {n : Nat} {r : LowReg} (hn : n < 8) : LowReg.ofNum n = r ↔ n = r.num :=
  ⟨by rintro rfl; interval_cases n <;> rfl, by rintro rfl; cases r <;> rfl⟩

theorem Reg.num_lt (r : Reg) : r.num < 16 := by cases r <;> decide

theorem Reg.ofNum_eq_iff {n : Nat} {r : Reg} (hn : n < 16) : Reg.ofNum n = r ↔ n = r.num :=
  ⟨by rintro rfl; interval_cases n <;> rfl, by rintro rfl; cases r <;> rfl⟩

theorem Cond.num_lt (c : Cond) : c.num < 15 := by cases c <;> decide

theorem Cond.ofNum_eq_some_iff {n : Nat} {c : Cond} : Cond.ofNum n = some c ↔ n = c.num := by
  refine ⟨fun h => ?_, fun h => by subst h; cases c <;> rfl⟩
  unfold Cond.ofNum at h
  split at h <;> cases h <;> rfl

theorem ShiftType.num_lt (t : ShiftType) : t.num < 4 := by cases t <;> decide

theorem ShiftType.ofNum_eq_iff {n : Nat} {t : ShiftType} (hn : n < 4) : ShiftType.ofNum n = t ↔ n = t.num :=
  ⟨by rintro rfl; interval_cases n <;> rfl, by rintro rfl; cases t <;> rfl⟩

theorem SysReg.num_lt (r : SysReg) : r.num < 256 := by cases r <;> decide

theorem SysReg.ofNum_eq_some_iff {n : Nat} {r : SysReg} : SysReg.ofNum n = some r ↔ n = r.num := by
  refine ⟨fun h => ?_, fun h => by subst h; cases r <;> rfl⟩
  unfold SysReg.ofNum at h
  split_ifs at h <;> cases h <;> assumption

/-! ## Fields as names -/

section
variable {h : Half} {lo : Nat}

theorem lowAt_eq_iff {r : LowReg} : lowAt h lo = r ↔ bits h lo 3 = r.num := LowReg.ofNum_eq_iff (bits_lt h lo 3)

theorem regAt_eq_iff {r : Reg} : regAt h lo = r ↔ bits h lo 4 = r.num := Reg.ofNum_eq_iff (bits_lt h lo 4)

theorem bit_eq_iff {b : Bool} : bit h lo = b ↔ bits h lo 1 = b.toNat := by
  have := bits_lt h lo 1
  cases b with
  | false => rw [bit, decide_eq_false_iff_not, Bool.toNat_false]; omega
  | true => rw [bit, decide_eq_true_iff, Bool.toNat_true]

theorem ofNat_bits_eq_iff {w : Nat} {x : BitVec w} : BitVec.ofNat w (bits h lo w) = x ↔ bits h lo w = x.toNat := by
  rw [← BitVec.toNat_inj, BitVec.toNat_ofNat, Nat.mod_eq_of_lt (bits_lt h lo w)]

end

end Sys2Proof
end

section
/-! SUPPORT. The 16-bit formats (30_encoding R110 to R115): what the halfword of each format is made of, and that parsing and
encoding agree on it. -/

namespace Sys2Proof

section
variable {h : Half} {i : Instr}

/-! ## The encoder's formats, in the decoder's fields -/

theorem encShift16_eq_iff {op imm5 : Nat} {rm rd : LowReg} (hop : op < 4) (himm : imm5 < 32) :
    encShift16 op imm5 rm rd = [h] ↔
      bits h 13 3 = 0b000 ∧ bits h 11 2 = op ∧ bits h 6 5 = imm5 ∧ lowAt h 3 = rm ∧ lowAt h 0 = rd := by
  simp [encShift16, pack_eq_iff, fieldsWidth, HasFields, hop, himm, LowReg.num_lt, lowAt_eq_iff]

theorem encImm8_eq_iff {op5 : Nat} {r : LowReg} {imm8 : BitVec 8} (hop : op5 < 32) :
    encImm8 op5 r imm8 = [h] ↔ bits h 11 5 = op5 ∧ lowAt h 8 = r ∧ BitVec.ofNat 8 (bits h 0 8) = imm8 := by
  have himm := imm8.isLt
  simp [encImm8, pack_eq_iff, fieldsWidth, HasFields, hop, himm, LowReg.num_lt, lowAt_eq_iff, ofNat_bits_eq_iff]

theorem encDp16_eq_iff {op4 : Nat} {rdn rm : LowReg} (hop : op4 < 16) :
    encDp16 op4 rdn rm = [h] ↔ bits h 10 6 = 0b010000 ∧ bits h 6 4 = op4 ∧ lowAt h 3 = rm ∧ lowAt h 0 = rdn := by
  simp [encDp16, pack_eq_iff, fieldsWidth, HasFields, hop, LowReg.num_lt, lowAt_eq_iff]

theorem encSpecial16_eq_iff {op2 : Nat} {rd rm : Reg} (hop : op2 < 4) :
    encSpecial16 op2 rd rm = [h] ↔
      bits h 10 6 = 0b010001 ∧ bits h 8 2 = op2 ∧ Reg.ofNum (bits h 7 1 * 8 + bits h 0 3) = rd ∧ regAt h 3 = rm := by
  have hrd := rd.num_lt
  have h0 := bits_lt h 0 3
  have h7 := bits_lt h 7 1
  rw [Reg.ofNum_eq_iff (by omega)]
  simp [encSpecial16, pack_eq_iff, fieldsWidth, HasFields, hop, Reg.num_lt, regAt_eq_iff, Nat.mod_lt,
    show rd.num / 8 < 2 by omega]
  omega

theorem encBranchExchange_eq_iff {link : Nat} {rm : Reg} (hl : link < 2) :
    [pack [(9, 0b010001110 + link), (4, rm.num), (3, 0)]] = [h] ↔
      bits h 10 6 = 0b010001 ∧ bits h 8 2 = 0b11 ∧ bits h 7 1 = link ∧ regAt h 3 = rm ∧ bits h 0 3 = 0 := by
  have htop := bits_add h 7 3 6
  have hlow := bits_add h 7 1 2
  have h7 := bits_lt h 7 1
  have h8 := bits_lt h 8 2
  simp [pack_eq_iff, fieldsWidth, HasFields, Reg.num_lt, regAt_eq_iff, show 142 + link < 512 by omega] at htop hlow ⊢
  omega

theorem encThree16_eq_iff {op7 : Nat} {rm rn rt : LowReg} (hop : op7 < 128) :
    encThree16 op7 rm rn rt = [h] ↔ bits h 9 7 = op7 ∧ lowAt h 6 = rm ∧ lowAt h 3 = rn ∧ lowAt h 0 = rt := by
  simp [encThree16, pack_eq_iff, fieldsWidth, HasFields, hop, LowReg.num_lt, lowAt_eq_iff]

theorem encode_addsImm3_eq_iff {imm3 : BitVec 3} {rd rn : LowReg} :
    encode (.addsImm3 rd rn imm3) = [h] ↔
      bits h 9 7 = 0b0001110 ∧ BitVec.ofNat 3 (bits h 6 3) = imm3 ∧ lowAt h 3 = rn ∧ lowAt h 0 = rd := by
  have himm := imm3.isLt
  simp [encode, pack_eq_iff, fieldsWidth, HasFields, himm, LowReg.num_lt, lowAt_eq_iff, ofNat_bits_eq_iff]

theorem encImm5_eq_iff {op5 : Nat} {imm5 : BitVec 5} {rn rt : LowReg} (hop : op5 < 32) :
    encImm5 op5 imm5 rn rt = [h] ↔
      bits h 11 5 = op5 ∧ BitVec.ofNat 5 (bits h 6 5) = imm5 ∧ lowAt h 3 = rn ∧ lowAt h 0 = rt := by
  have himm := imm5.isLt
  simp [encImm5, pack_eq_iff, fieldsWidth, HasFields, hop, himm, LowReg.num_lt, lowAt_eq_iff, ofNat_bits_eq_iff]

theorem encCompareBranch_eq_iff {op : Nat} {imm6 : BitVec 6} {rn : LowReg} (hop : op < 2) :
    encCompareBranch op imm6 rn = [h] ↔
      bits h 12 4 = 0b1011 ∧ bits h 11 1 = op ∧ bits h 10 1 = 0 ∧ bits h 8 1 = 1 ∧
        BitVec.ofNat 6 (bits h 9 1 * 32 + bits h 3 5) = imm6 ∧ lowAt h 0 = rn := by
  have himm := imm6.isLt
  have h3 := bits_lt h 3 5
  have h9 := bits_lt h 9 1
  rw [← BitVec.toNat_inj, BitVec.toNat_ofNat]
  simp [encCompareBranch, pack_eq_iff, fieldsWidth, HasFields, hop, LowReg.num_lt, lowAt_eq_iff, Nat.mod_lt,
    show imm6.toNat / 32 < 2 by omega]
  omega

theorem encode_pop16_eq_iff {p : Bool} {list : BitVec 8} :
    encode (.pop16 p list) = [h] ↔ bits h 9 7 = 0b1011110 ∧ bit h 8 = p ∧ BitVec.ofNat 8 (bits h 0 8) = list := by
  have hlist := list.isLt
  simp [encode, pack_eq_iff, fieldsWidth, HasFields, hlist, Bool.toNat_le, bit_eq_iff, ofNat_bits_eq_iff]

theorem encode_it_eq_iff {c : Cond} {mask : BitVec 4} :
    encode (.it c mask) = [h] ↔
      bits h 8 8 = 0b10111111 ∧ Cond.ofNum (bits h 4 4) = some c ∧ BitVec.ofNat 4 (bits h 0 4) = mask := by
  have hmask := mask.isLt
  simp [encode, pack_eq_iff, fieldsWidth, HasFields, hmask, c.num_lt.trans, Cond.ofNum_eq_some_iff, ofNat_bits_eq_iff]

theorem encode_bCond16_eq_iff {c : Cond} {imm8 : BitVec 8} :
    encode (.bCond16 c imm8) = [h] ↔
      bits h 12 4 = 0b1101 ∧ Cond.ofNum (bits h 8 4) = some c ∧ BitVec.ofNat 8 (bits h 0 8) = imm8 := by
  have himm := imm8.isLt
  simp [encode, pack_eq_iff, fieldsWidth, HasFields, himm, c.num_lt.trans, Cond.ofNum_eq_some_iff, ofNat_bits_eq_iff]

theorem encode_b16_eq_iff {imm11 : BitVec 11} :
    encode (.b16 imm11) = [h] ↔ bits h 11 5 = 0b11100 ∧ BitVec.ofNat 11 (bits h 0 11) = imm11 := by
  have himm := imm11.isLt
  simp [encode, pack_eq_iff, fieldsWidth, HasFields, himm, ofNat_bits_eq_iff]

/-! ## The parser's dispatch on bits[15:10] -/

section
variable (h)

theorem bits_13_3_eq_10_6 : bits h 13 3 = bits h 10 6 / 8 % 8 := bits_inner h (k := 3) (by decide)
theorem bits_12_4_eq_10_6 : bits h 12 4 = bits h 10 6 / 4 % 16 := bits_inner h (k := 2) (by decide)
theorem bits_11_5_eq_10_6 : bits h 11 5 = bits h 10 6 / 2 % 32 := bits_inner h (k := 1) (by decide)
theorem bits_13_3_eq_9_7 : bits h 13 3 = bits h 9 7 / 16 % 8 := bits_inner h (k := 4) (by decide)
theorem bits_12_4_eq_9_7 : bits h 12 4 = bits h 9 7 / 8 % 16 := bits_inner h (k := 3) (by decide)
theorem bits_11_2_eq_9_7 : bits h 11 2 = bits h 9 7 / 4 % 4 := bits_inner h (k := 2) (by decide)
theorem bits_10_1_eq_9_7 : bits h 10 1 = bits h 9 7 / 2 % 2 := bits_inner h (k := 1) (by decide)
theorem bits_12_4_eq_8_8 : bits h 12 4 = bits h 8 8 / 16 % 16 := bits_inner h (k := 4) (by decide)
theorem bits_10_1_eq_8_8 : bits h 10 1 = bits h 8 8 / 4 % 2 := bits_inner h (k := 2) (by decide)
theorem bits_9_3_eq_8_8 : bits h 9 3 = bits h 8 8 / 2 % 8 := bits_inner h (k := 1) (by decide)
theorem bits_8_4_eq_8_8 : bits h 8 4 = bits h 8 8 % 16 := bits_low h (by decide)
theorem bits_9_3_eq_9_7 : bits h 9 3 = bits h 9 7 % 8 := bits_low h (by decide)
theorem bits_9_2_eq_9_7 : bits h 9 2 = bits h 9 7 % 4 := bits_low h (by decide)

end

theorem bits_10_6_of_bits_12_4 {c : Nat} (hp : bits h 12 4 = c) :
    bits h 10 6 = c * 4 ∨ bits h 10 6 = c * 4 + 1 ∨ bits h 10 6 = c * 4 + 2 ∨ bits h 10 6 = c * 4 + 3 := by
  have hlow := bits_lt h 10 2
  have hadd : bits h 10 6 = bits h 12 4 * 4 + bits h 10 2 := bits_add h 10 2 4
  omega

theorem bits_10_6_of_bits_11_5 {c : Nat} (hp : bits h 11 5 = c) : bits h 10 6 = c * 2 ∨ bits h 10 6 = c * 2 + 1 := by
  have hlow := bits_lt h 10 1
  have hadd : bits h 10 6 = bits h 11 5 * 2 + bits h 10 1 := bits_add h 10 1 5
  omega

theorem parse16_of_shift (hp : bits h 13 3 = 0b000) : parse16 h = parseShift16 h := by
  simp [parse16, hp]

theorem parse16_of_dp (hp : bits h 10 6 = 0b010000) : parse16 h = parseDp16 h := by
  simp [parse16, bits_13_3_eq_10_6, bits_11_5_eq_10_6, hp]

theorem parse16_of_special (hp : bits h 10 6 = 0b010001) : parse16 h = parseSpecial16 h := by
  simp [parse16, bits_13_3_eq_10_6, bits_11_5_eq_10_6, hp]

theorem parse16_of_loadStoreReg (hp : bits h 12 4 = 0b0101) : parse16 h = parseLoadStoreReg16 h := by
  obtain htop | htop | htop | htop := bits_10_6_of_bits_12_4 hp <;>
    simp [parse16, bits_13_3_eq_10_6, bits_11_5_eq_10_6, htop, hp]

theorem parse16_of_misc (hp : bits h 12 4 = 0b1011) : parse16 h = parseMisc16 h := by
  obtain htop | htop | htop | htop := bits_10_6_of_bits_12_4 hp <;>
    simp [parse16, bits_13_3_eq_10_6, bits_11_5_eq_10_6, htop, hp]

theorem parse16_of_bCond (hp : bits h 12 4 = 0b1101) :
    parse16 h = (Cond.ofNum (bits h 8 4)).map fun c => .bCond16 c (BitVec.ofNat 8 (bits h 0 8)) := by
  obtain htop | htop | htop | htop := bits_10_6_of_bits_12_4 hp <;>
    simp [parse16, bits_13_3_eq_10_6, bits_11_5_eq_10_6, htop, hp]

/-! ## Parsing gives the instruction encoded -/

/-- A halfword that is the encoding of a well-formed 16-bit instruction parses as that instruction. -/
theorem parse16_of_encode (hw : i.wellFormed = true) (he : encode i = [h]) : parse16 h = some i := by
  cases i with
  | lslsImm16 rd rm imm5 =>
    obtain ⟨hp, hop, himm, rfl, rfl⟩ := (encShift16_eq_iff (by decide) imm5.isLt).1 he
    have hne : imm5.toNat ≠ 0 := by simpa [Instr.wellFormed, ← BitVec.toNat_inj] using hw
    simp [parse16_of_shift hp, parseShift16, hop, himm, hne]
  | movsReg16 rd rm =>
    obtain ⟨hp, hop, himm, rfl, rfl⟩ := (encShift16_eq_iff (by decide) (by decide)).1 he
    simp [parse16_of_shift hp, parseShift16, hop, himm]
  | lsrsImm16 rd rm imm5 | asrsImm16 rd rm imm5 =>
    obtain ⟨hp, hop, himm, rfl, rfl⟩ := (encShift16_eq_iff (by decide) imm5.isLt).1 he
    simp [parse16_of_shift hp, parseShift16, hop, himm]
  | addsReg16 rd rn rm =>
    obtain ⟨hop, rfl, rfl, rfl⟩ := (encThree16_eq_iff (by decide)).1 he
    simp [parse16_of_shift, parseShift16, bits_13_3_eq_9_7, bits_11_2_eq_9_7, bits_9_2_eq_9_7, hop]
  | addsImm3 rd rn imm3 =>
    obtain ⟨hop, rfl, rfl, rfl⟩ := encode_addsImm3_eq_iff.1 he
    simp [parse16_of_shift, parseShift16, bits_13_3_eq_9_7, bits_11_2_eq_9_7, bits_9_2_eq_9_7, hop]
  | movsImm8 r imm8 | cmpImm8 r imm8 | addsImm8 r imm8 | ldrLit16 r imm8 | strSp16 r imm8 | ldrSp16 r imm8
  | ldm16 r imm8 =>
    obtain ⟨hp, rfl, rfl⟩ := (encImm8_eq_iff (by decide)).1 he
    obtain htop | htop := bits_10_6_of_bits_11_5 hp <;>
      simp [parse16, bits_13_3_eq_10_6, bits_12_4_eq_10_6, bits_11_5_eq_10_6, htop]
  | andsReg16 rd rm | eorsReg16 rd rm | lslsReg16 rd rm | lsrsReg16 rd rm | asrsReg16 rd rm | rorsReg16 rd rm
  | tstReg16 rd rm | rsbsZero16 rd rm | cmpReg16 rd rm | cmnReg16 rd rm | orrsReg16 rd rm | bicsReg16 rd rm
  | mvnsReg16 rd rm =>
    obtain ⟨hp, hop, rfl, rfl⟩ := (encDp16_eq_iff (by decide)).1 he
    simp [parse16_of_dp hp, parseDp16, hop]
  | addHigh rd rm | cmpHigh rd rm | movHigh rd rm =>
    obtain ⟨hp, hop, rfl, rfl⟩ := (encSpecial16_eq_iff (by decide)).1 he
    simp [parse16_of_special hp, parseSpecial16, hop]
  | bx rm =>
    obtain ⟨hp, hop, hlink, rfl, hlow⟩ := (encBranchExchange_eq_iff (link := 0) (by decide)).1 he
    simp [parse16_of_special hp, parseSpecial16, hop, hlink, hlow]
  | blx rm =>
    obtain ⟨hp, hop, hlink, rfl, hlow⟩ := (encBranchExchange_eq_iff (link := 1) (by decide)).1 he
    simp [parse16_of_special hp, parseSpecial16, hop, hlink, hlow]
  | strReg16 rt rn rm | strhReg16 rt rn rm | ldrReg16 rt rn rm | ldrhReg16 rt rn rm | ldrshReg16 rt rn rm =>
    obtain ⟨hop, rfl, rfl, rfl⟩ := (encThree16_eq_iff (by decide)).1 he
    simp [parse16_of_loadStoreReg, parseLoadStoreReg16, bits_12_4_eq_9_7, bits_9_3_eq_9_7, hop]
  | strImm16 rt rn imm5 | ldrImm16 rt rn imm5 | strhImm16 rt rn imm5 | ldrhImm16 rt rn imm5 =>
    obtain ⟨hp, rfl, rfl, rfl⟩ := (encImm5_eq_iff (by decide)).1 he
    obtain htop | htop := bits_10_6_of_bits_11_5 hp <;>
      simp [parse16, bits_13_3_eq_10_6, bits_12_4_eq_10_6, bits_11_5_eq_10_6, htop]
  | cbz rn imm6 | cbnz rn imm6 =>
    obtain ⟨hp, hop, h10, h8, rfl, rfl⟩ := (encCompareBranch_eq_iff (by decide)).1 he
    simp [parse16_of_misc hp, parseMisc16, hop, h10, h8]
  | pop16 p list =>
    obtain ⟨hop, rfl, rfl⟩ := encode_pop16_eq_iff.1 he
    simp [parse16_of_misc, parseMisc16, bits_12_4_eq_9_7, bits_10_1_eq_9_7, bits_9_3_eq_9_7, hop]
  | it c mask =>
    obtain ⟨hop, hc, rfl⟩ := encode_it_eq_iff.1 he
    simp [parse16_of_misc, parseMisc16, bits_12_4_eq_8_8, bits_10_1_eq_8_8, bits_9_3_eq_8_8, bits_8_4_eq_8_8, hop, hc]
  | bCond16 c imm8 =>
    obtain ⟨hp, hc, rfl⟩ := encode_bCond16_eq_iff.1 he
    simp [parse16_of_bCond hp, hc]
  | b16 imm11 =>
    obtain ⟨hp, rfl⟩ := encode_b16_eq_iff.1 he
    obtain htop | htop := bits_10_6_of_bits_11_5 hp <;>
      simp [parse16, bits_13_3_eq_10_6, bits_12_4_eq_10_6, bits_11_5_eq_10_6, htop]
  | _ => cases he

/-! ## What parses is encoded by the halfword -/

theorem encode_of_parseShift16 (hp : bits h 13 3 = 0b000) (hi : parseShift16 h = some i) : encode i = [h] := by
  have htop : bits h 9 7 = bits h 11 5 * 4 + bits h 9 2 := bits_add h 9 2 5
  have hmid : bits h 11 5 = bits h 13 3 * 4 + bits h 11 2 := bits_add h 11 2 3
  have hlt := bits_lt h 11 2
  have himm : bits h 6 5 = (BitVec.ofNat 5 (bits h 6 5)).toNat := ofNat_bits_eq_iff.1 rfl
  rw [parseShift16] at hi
  obtain ⟨hop, hi⟩ | ⟨h0, hi⟩ := ite_eq_iff.1 hi
  · obtain ⟨hzero, ⟨⟩⟩ | ⟨-, ⟨⟩⟩ := ite_eq_iff.1 hi
    · exact (encShift16_eq_iff (by decide) (by decide)).2 ⟨hp, hop, hzero, rfl, rfl⟩
    · exact (encShift16_eq_iff (by decide) (BitVec.isLt _)).2 ⟨hp, hop, himm, rfl, rfl⟩
  obtain ⟨hop, ⟨⟩⟩ | ⟨h1, hi⟩ := ite_eq_iff.1 hi
  · exact (encShift16_eq_iff (by decide) (BitVec.isLt _)).2 ⟨hp, hop, himm, rfl, rfl⟩
  obtain ⟨hop, ⟨⟩⟩ | ⟨h2, hi⟩ := ite_eq_iff.1 hi
  · exact (encShift16_eq_iff (by decide) (BitVec.isLt _)).2 ⟨hp, hop, himm, rfl, rfl⟩
  obtain ⟨hop, ⟨⟩⟩ | ⟨-, hi⟩ := ite_eq_iff.1 hi
  · exact (encThree16_eq_iff (by decide)).2 ⟨by omega, rfl, rfl, rfl⟩
  obtain ⟨hop, ⟨⟩⟩ | ⟨-, ⟨⟩⟩ := ite_eq_iff.1 hi
  exact encode_addsImm3_eq_iff.2 ⟨by omega, rfl, rfl, rfl⟩

theorem encode_of_parseDp16 (hp : bits h 10 6 = 0b010000) (hi : parseDp16 h = some i) : encode i = [h] := by
  rw [parseDp16] at hi
  iterate 13
    obtain ⟨hop, ⟨⟩⟩ | ⟨-, hi⟩ := ite_eq_iff.1 hi
    · exact (encDp16_eq_iff (by decide)).2 ⟨hp, hop, rfl, rfl⟩
  cases hi

theorem encode_of_parseSpecial16 (hp : bits h 10 6 = 0b010001) (hi : parseSpecial16 h = some i) : encode i = [h] := by
  have hop3 := bits_lt h 8 2
  have hlink := bits_lt h 7 1
  rw [parseSpecial16] at hi
  obtain ⟨hop, ⟨⟩⟩ | ⟨h0, hi⟩ := ite_eq_iff.1 hi
  · exact (encSpecial16_eq_iff (by decide)).2 ⟨hp, hop, rfl, rfl⟩
  obtain ⟨hop, ⟨⟩⟩ | ⟨h1, hi⟩ := ite_eq_iff.1 hi
  · exact (encSpecial16_eq_iff (by decide)).2 ⟨hp, hop, rfl, rfl⟩
  obtain ⟨hop, ⟨⟩⟩ | ⟨h2, hi⟩ := ite_eq_iff.1 hi
  · exact (encSpecial16_eq_iff (by decide)).2 ⟨hp, hop, rfl, rfl⟩
  obtain ⟨hlow, hi⟩ | ⟨-, ⟨⟩⟩ := ite_eq_iff.1 hi
  obtain ⟨h7, ⟨⟩⟩ | ⟨h7, ⟨⟩⟩ := ite_eq_iff.1 hi
  · exact (encBranchExchange_eq_iff (link := 0) (by decide)).2 ⟨hp, by omega, h7, rfl, hlow⟩
  · exact (encBranchExchange_eq_iff (link := 1) (by decide)).2 ⟨hp, by omega, by omega, rfl, hlow⟩

theorem encode_of_parseLoadStoreReg16 (hp : bits h 12 4 = 0b0101) (hi : parseLoadStoreReg16 h = some i) :
    encode i = [h] := by
  have htop : bits h 9 7 = bits h 12 4 * 8 + bits h 9 3 := bits_add h 9 3 4
  rw [parseLoadStoreReg16] at hi
  iterate 5
    obtain ⟨hop, ⟨⟩⟩ | ⟨-, hi⟩ := ite_eq_iff.1 hi
    · exact (encThree16_eq_iff (by decide)).2 ⟨by omega, rfl, rfl, rfl⟩
  cases hi

theorem encode_of_parseMisc16 (hp : bits h 12 4 = 0b1011) (hi : parseMisc16 h = some i) : encode i = [h] := by
  have h11 := bits_lt h 11 1
  rw [parseMisc16] at hi
  obtain ⟨⟨h10, h8⟩, hi⟩ | ⟨-, hi⟩ := ite_eq_iff.1 hi
  · obtain ⟨hop, ⟨⟩⟩ | ⟨hop, ⟨⟩⟩ := ite_eq_iff.1 hi
    · exact (encCompareBranch_eq_iff (by decide)).2 ⟨hp, hop, h10, h8, rfl, rfl⟩
    · exact (encCompareBranch_eq_iff (by decide)).2 ⟨hp, by omega, h10, h8, rfl, rfl⟩
  obtain ⟨hop, ⟨⟩⟩ | ⟨-, hi⟩ := ite_eq_iff.1 hi
  · have htop : bits h 9 7 = bits h 12 4 * 8 + bits h 9 3 := bits_add h 9 3 4
    exact encode_pop16_eq_iff.2 ⟨by omega, rfl, rfl⟩
  obtain ⟨hop, hi⟩ | ⟨-, ⟨⟩⟩ := ite_eq_iff.1 hi
  obtain ⟨c, hc, rfl⟩ := Option.map_eq_some_iff.1 hi
  have htop : bits h 8 8 = bits h 12 4 * 16 + bits h 8 4 := bits_add h 8 4 4
  exact encode_it_eq_iff.2 ⟨by omega, hc, rfl⟩

/-- A halfword that parses is the encoding of what it parses as. -/
theorem encode_of_parse16 (hi : parse16 h = some i) : encode i = [h] := by
  rw [parse16] at hi
  obtain ⟨hp, hi⟩ | ⟨-, hi⟩ := ite_eq_iff.1 hi
  · exact encode_of_parseShift16 hp hi
  iterate 3
    obtain ⟨hp, ⟨⟩⟩ | ⟨-, hi⟩ := ite_eq_iff.1 hi
    · exact (encImm8_eq_iff (by decide)).2 ⟨hp, rfl, rfl⟩
  obtain ⟨hp, hi⟩ | ⟨-, hi⟩ := ite_eq_iff.1 hi
  · exact encode_of_parseDp16 hp hi
  obtain ⟨hp, hi⟩ | ⟨-, hi⟩ := ite_eq_iff.1 hi
  · exact encode_of_parseSpecial16 hp hi
  obtain ⟨hp, ⟨⟩⟩ | ⟨-, hi⟩ := ite_eq_iff.1 hi
  · exact (encImm8_eq_iff (by decide)).2 ⟨hp, rfl, rfl⟩
  obtain ⟨hp, hi⟩ | ⟨-, hi⟩ := ite_eq_iff.1 hi
  · exact encode_of_parseLoadStoreReg16 hp hi
  iterate 4
    obtain ⟨hp, ⟨⟩⟩ | ⟨-, hi⟩ := ite_eq_iff.1 hi
    · exact (encImm5_eq_iff (by decide)).2 ⟨hp, rfl, rfl, rfl⟩
  iterate 2
    obtain ⟨hp, ⟨⟩⟩ | ⟨-, hi⟩ := ite_eq_iff.1 hi
    · exact (encImm8_eq_iff (by decide)).2 ⟨hp, rfl, rfl⟩
  obtain ⟨hp, hi⟩ | ⟨-, hi⟩ := ite_eq_iff.1 hi
  · exact encode_of_parseMisc16 hp hi
  obtain ⟨hp, ⟨⟩⟩ | ⟨-, hi⟩ := ite_eq_iff.1 hi
  · exact (encImm8_eq_iff (by decide)).2 ⟨hp, rfl, rfl⟩
  obtain ⟨hp, hi⟩ | ⟨-, hi⟩ := ite_eq_iff.1 hi
  · obtain ⟨c, hc, rfl⟩ := Option.map_eq_some_iff.1 hi
    exact encode_bCond16_eq_iff.2 ⟨hp, hc, rfl⟩
  obtain ⟨hp, ⟨⟩⟩ | ⟨-, ⟨⟩⟩ := ite_eq_iff.1 hi
  exact encode_b16_eq_iff.2 ⟨hp, rfl⟩

end

end Sys2Proof
end

section
/-! SUPPORT. The 32-bit formats (30_encoding R116): what the two halfwords of each format are made of, and that parsing and
encoding agree on them. -/

namespace Sys2Proof

theorem Reg.num_ne_15 {r : Reg} (h : r ≠ .pc) : r.num ≠ 15 :=
  fun hr => h ((Reg.ofNum_eq_iff (by decide)).2 hr.symm).symm

theorem bits_0_16 (h : Half) : bits h 0 16 = h.toNat := by
  rw [bits, Nat.pow_zero, Nat.div_one, Nat.mod_eq_of_lt h.isLt]

section
variable {h1 h2 : Half} {i : Instr}

/-! ## The encoder's formats, in the decoder's fields -/

theorem encConst32_eq_iff {op4 s rn rd : Nat} {imm12 : BitVec 12} (hop : op4 < 16) (hs : s < 2) (hrn : rn < 16)
    (hrd : rd < 16) :
    encConst32 op4 s rn rd imm12 = [h1, h2] ↔
      (bits h1 11 5 = 0b11110 ∧ bits h1 9 1 = 0 ∧ bits h1 5 4 = op4 ∧ bits h1 4 1 = s ∧ bits h1 0 4 = rn) ∧
        bits h2 15 1 = 0 ∧ bits h2 8 4 = rd ∧
          BitVec.ofNat 12 (bits h1 10 1 * 2048 + bits h2 12 3 * 256 + bits h2 0 8) = imm12 := by
  have himm := imm12.isLt
  have h10 := bits_lt h1 10 1
  have h12 := bits_lt h2 12 3
  have h0 := bits_lt h2 0 8
  rw [← BitVec.toNat_inj, BitVec.toNat_ofNat]
  simp [encConst32, pack_eq_iff, fieldsWidth, HasFields, hop, hs, hrn, hrd, Nat.mod_lt,
    show imm12.toNat / 2048 < 2 by omega]
  omega

theorem encShifted32_eq_iff {op4 s rn rd ty imm5 rm : Nat} (hop : op4 < 16) (hs : s < 2) (hrn : rn < 16)
    (hrd : rd < 16) (hty : ty < 4) (himm : imm5 < 32) (hrm : rm < 16) :
    encShifted32 op4 s rn rd ty imm5 rm = [h1, h2] ↔
      (bits h1 9 7 = 0b1110101 ∧ bits h1 5 4 = op4 ∧ bits h1 4 1 = s ∧ bits h1 0 4 = rn) ∧
        bits h2 15 1 = 0 ∧ bits h2 12 3 * 4 + bits h2 6 2 = imm5 ∧ bits h2 8 4 = rd ∧ bits h2 4 2 = ty ∧
          bits h2 0 4 = rm := by
  have h6 := bits_lt h2 6 2
  simp [encShifted32, pack_eq_iff, fieldsWidth, HasFields, hop, hs, hrn, hrd, hty, hrm, Nat.mod_lt,
    show imm5 / 4 < 8 by omega]
  omega

theorem encShiftReg32_eq_iff {ty : Nat} {sf : Bool} {rm rd rs : Reg} (hty : ty < 4) :
    encShiftReg32 ty sf rm rd rs = [h1, h2] ↔
      (bits h1 7 9 = 0b111110100 ∧ bits h1 5 2 = ty ∧ bit h1 4 = sf ∧ regAt h1 0 = rm) ∧
        bits h2 12 4 = 0b1111 ∧ regAt h2 8 = rd ∧ bits h2 4 4 = 0 ∧ regAt h2 0 = rs := by
  simp [encShiftReg32, pack_eq_iff, fieldsWidth, HasFields, hty, Bool.toNat_le, Reg.num_lt, bit_eq_iff, regAt_eq_iff]

theorem encMultiple32_eq_iff {op10 w rn : Nat} {p m : Bool} {list : BitVec 13} (hop : op10 < 1024) (hw : w < 2)
    (hrn : rn < 16) :
    encMultiple32 op10 w rn p m list = [h1, h2] ↔
      (bits h1 6 10 = op10 ∧ bits h1 5 1 = w ∧ bits h1 4 1 = 1 ∧ bits h1 0 4 = rn) ∧
        bit h2 15 = p ∧ bit h2 14 = m ∧ bits h2 13 1 = 0 ∧ BitVec.ofNat 13 (bits h2 0 13) = list := by
  have hlist := list.isLt
  simp [encMultiple32, pack_eq_iff, fieldsWidth, HasFields, hop, hw, hrn, hlist, Bool.toNat_le, bit_eq_iff,
    ofNat_bits_eq_iff]

theorem encMrs_eq_iff {rd : Reg} {r : SysReg} :
    encMrs rd r = [h1, h2] ↔
      h1.toNat = 0xF3EF ∧ bits h2 12 4 = 0b1000 ∧ regAt h2 8 = rd ∧ SysReg.ofNum (bits h2 0 8) = some r := by
  simp [encMrs, pack_eq_iff, fieldsWidth, HasFields, Reg.num_lt, SysReg.num_lt, bits_0_16, regAt_eq_iff,
    SysReg.ofNum_eq_some_iff]

theorem encMsr_eq_iff {rn : Reg} {r : SysReg} :
    encMsr rn r = [h1, h2] ↔
      (bits h1 4 12 = 0xF38 ∧ regAt h1 0 = rn) ∧ bits h2 8 8 = 0x88 ∧ SysReg.ofNum (bits h2 0 8) = some r := by
  simp [encMsr, pack_eq_iff, fieldsWidth, HasFields, Reg.num_lt, SysReg.num_lt, regAt_eq_iff, SysReg.ofNum_eq_some_iff]

theorem jBit_le (i s : Nat) : jBit i s ≤ 1 := by
  unfold jBit; split <;> decide

/-- The relation of the J and I bits of a branch goes both ways (30_encoding R103). -/
theorem eq_jBit_iff {i j s : Nat} (hi : i < 2) (hj : j < 2) (hs : s < 2) : j = jBit i s ↔ i = jBit j s := by
  unfold jBit; split <;> split <;> omega

theorem encBranch24_eq_iff {link : Nat} {imm24 : BitVec 24} (hl : link < 2) :
    encBranch24 link imm24 = [h1, h2] ↔
      bits h1 11 5 = 0b11110 ∧ bits h2 15 1 = 1 ∧ bits h2 14 1 = link ∧ bits h2 12 1 = 1 ∧
        BitVec.ofNat 24 (bits h1 10 1 * 8388608 + jBit (bits h2 13 1) (bits h1 10 1) * 4194304 +
          jBit (bits h2 11 1) (bits h1 10 1) * 2097152 + bits h1 0 10 * 2048 + bits h2 0 11) = imm24 := by
  have himm := imm24.isLt
  have hs := bits_lt h1 10 1
  have hj1 := bits_lt h2 13 1
  have hj2 := bits_lt h2 11 1
  have hhi := bits_lt h1 0 10
  have hlo := bits_lt h2 0 11
  have hs' : imm24.toNat / 8388608 < 2 := by omega
  have hi1 := jBit_le (bits h2 13 1) (bits h1 10 1)
  have hi2 := jBit_le (bits h2 11 1) (bits h1 10 1)
  have hJ1 := eq_jBit_iff (i := imm24.toNat / 4194304 % 2) (by omega) hj1 hs
  have hJ2 := eq_jBit_iff (i := imm24.toNat / 2097152 % 2) (by omega) hj2 hs
  rw [← BitVec.toNat_inj, BitVec.toNat_ofNat]
  simp [encBranch24, pack_eq_iff, fieldsWidth, HasFields, Nat.le_of_lt_succ hl, Nat.mod_lt, jBit_le, hs']
  constructor
  · rintro ⟨⟨h11, h10, h0⟩, h15, h14, h13, h12, h11', h0'⟩
    rw [← h10, hJ1] at h13
    rw [← h10, hJ2] at h11'
    omega
  · rintro ⟨h11, h15, h14, h12, heq⟩
    have hbit : bits h1 10 1 = imm24.toNat / 8388608 := by omega
    rw [← hbit, hJ1, hJ2]
    omega

theorem encode_bCond32_eq_iff {c : Cond} {imm20 : BitVec 20} :
    encode (.bCond32 c imm20) = [h1, h2] ↔
      (bits h1 11 5 = 0b11110 ∧ Cond.ofNum (bits h1 6 4) = some c) ∧ bits h2 14 2 = 0b10 ∧ bits h2 12 1 = 0 ∧
        BitVec.ofNat 20 (bits h1 10 1 * 524288 + bits h2 11 1 * 262144 + bits h2 13 1 * 131072 + bits h1 0 6 * 2048 +
          bits h2 0 11) = imm20 := by
  have himm := imm20.isLt
  have hs := bits_lt h1 10 1
  have hj1 := bits_lt h2 13 1
  have hj2 := bits_lt h2 11 1
  have hhi := bits_lt h1 0 6
  have hlo := bits_lt h2 0 11
  have hle (n : Nat) : n % 2 ≤ 1 := Nat.le_of_lt_succ (Nat.mod_lt n (by decide))
  rw [← BitVec.toNat_inj, BitVec.toNat_ofNat]
  simp [encode, pack_eq_iff, fieldsWidth, HasFields, c.num_lt.trans, Nat.mod_lt, hle, Cond.ofNum_eq_some_iff,
    show imm20.toNat / 524288 < 2 by omega]
  omega

/-! ### Loads and stores -/

/-- The first halfword of a load or store has the fields `1111100 sg x op Rn`, where `op` is the size and the L bit. -/
def LoadStoreHead (h : Half) (sg x op rn : Nat) : Prop :=
  bits h 9 7 = 0b1111100 ∧ bits h 8 1 = sg ∧ bits h 7 1 = x ∧ bits h 4 3 = op ∧ bits h 0 4 = rn

theorem pack_loadStoreHead_iff {sg x size l rn : Nat} (hsg : sg < 2) (hx : x < 2) (hsize : size < 4) (hl : l < 2)
    (hrn : rn < 16) :
    pack [(7, 0b1111100), (1, sg), (1, x), (2, size), (1, l), (4, rn)] = h1 ↔ LoadStoreHead h1 sg x (size * 2 + l) rn := by
  have hadd : bits h1 4 3 = bits h1 5 2 * 2 + bits h1 4 1 := bits_add h1 4 1 2
  have h4 := bits_lt h1 4 1
  simp [pack_eq_iff, fieldsWidth, HasFields, LoadStoreHead, hsg, hx, hsize, hl, hrn]
  omega

theorem encLong32_eq_iff {sg size l : Nat} {rn rt : Reg} {imm12 : BitVec 12} (hsg : sg < 2) (hsize : size < 4)
    (hl : l < 2) :
    encLong32 sg size l rn rt imm12 = [h1, h2] ↔
      LoadStoreHead h1 sg 1 (size * 2 + l) rn.num ∧ regAt h2 12 = rt ∧ BitVec.ofNat 12 (bits h2 0 12) = imm12 := by
  have himm := imm12.isLt
  rw [← pack_loadStoreHead_iff hsg (by decide) hsize hl rn.num_lt]
  simp [encLong32, pack_eq_iff (h := h2), fieldsWidth, HasFields, himm, Reg.num_lt, regAt_eq_iff, ofNat_bits_eq_iff]

theorem encLiteral32_eq_iff {sg size : Nat} {u : Bool} {rt : Reg} {imm12 : BitVec 12} (hsg : sg < 2) (hsize : size < 4) :
    encLiteral32 sg size u rt imm12 = [h1, h2] ↔
      LoadStoreHead h1 sg u.toNat (size * 2 + 1) 15 ∧ regAt h2 12 = rt ∧ BitVec.ofNat 12 (bits h2 0 12) = imm12 := by
  have himm := imm12.isLt
  rw [← pack_loadStoreHead_iff hsg u.toNat_lt hsize (by decide) (by decide)]
  simp [encLiteral32, pack_eq_iff (h := h2), fieldsWidth, HasFields, himm, Reg.num_lt, regAt_eq_iff, ofNat_bits_eq_iff]

theorem encIndexed32_eq_iff {sg size l p u w : Nat} {rn rt : Reg} {imm8 : BitVec 8} (hsg : sg < 2) (hsize : size < 4)
    (hl : l < 2) (hp : p < 2) (hu : u < 2) (hw : w < 2) :
    encIndexed32 sg size l p u w rn rt imm8 = [h1, h2] ↔
      LoadStoreHead h1 sg 0 (size * 2 + l) rn.num ∧ regAt h2 12 = rt ∧ bits h2 11 1 = 1 ∧ bits h2 10 1 = p ∧
        bits h2 9 1 = u ∧ bits h2 8 1 = w ∧ BitVec.ofNat 8 (bits h2 0 8) = imm8 := by
  have himm := imm8.isLt
  rw [← pack_loadStoreHead_iff hsg (by decide) hsize hl rn.num_lt]
  simp [encIndexed32, pack_eq_iff (h := h2), fieldsWidth, HasFields, hp, hu, hw, himm, Reg.num_lt, regAt_eq_iff,
    ofNat_bits_eq_iff]

theorem encRegOffset32_eq_iff {sg size l : Nat} {rn rt rm : Reg} {imm2 : BitVec 2} (hsg : sg < 2) (hsize : size < 4)
    (hl : l < 2) :
    encRegOffset32 sg size l rn rt rm imm2 = [h1, h2] ↔
      LoadStoreHead h1 sg 0 (size * 2 + l) rn.num ∧ regAt h2 12 = rt ∧ bits h2 6 6 = 0 ∧
        BitVec.ofNat 2 (bits h2 4 2) = imm2 ∧ regAt h2 0 = rm := by
  have himm := imm2.isLt
  rw [← pack_loadStoreHead_iff hsg (by decide) hsize hl rn.num_lt]
  simp [encRegOffset32, pack_eq_iff (h := h2), fieldsWidth, HasFields, himm, Reg.num_lt, regAt_eq_iff, ofNat_bits_eq_iff]

theorem encode_popWOne_eq_iff {rt : Reg} :
    encode (.popWOne rt) = [h1, h2] ↔ h1.toNat = 0xF85D ∧ regAt h2 12 = rt ∧ bits h2 0 12 = 0xB04 := by
  simp [encode, pack_eq_iff, fieldsWidth, HasFields, Reg.num_lt, bits_0_16, regAt_eq_iff]

end

end Sys2Proof
end

section
/-! SUPPORT. Decoding the encoding of a 32-bit instruction (30_encoding R116). -/

namespace Sys2Proof

section
variable {h1 h2 : Half} {i : Instr}

/-! ## The parser's dispatch -/

theorem parse32_of_multiple (hp : bits h1 9 7 = 0b1110100) : parse32 h1 h2 = parseMultiple32 h1 h2 := by
  simp [parse32, hp]

theorem parse32_of_shifted (hp : bits h1 9 7 = 0b1110101) (h15 : bits h2 15 1 = 0) :
    parse32 h1 h2 = parseShifted32 h1 h2 := by
  simp [parse32, hp, h15]

theorem bits_11_5_eq_9_7 (h : Half) : bits h 11 5 = bits h 9 7 / 4 % 32 := bits_inner h (k := 2) (by decide)

/-- A first halfword that begins 11110 begins neither 1110100 nor 1110101. -/
theorem bits_9_7_ne {c : Nat} (hp : bits h1 11 5 = 0b11110) (hc : c / 4 % 32 ≠ 0b11110) : bits h1 9 7 ≠ c := by
  rintro rfl
  exact hc (bits_11_5_eq_9_7 h1 ▸ hp)

theorem parse32_of_branch (hp : bits h1 11 5 = 0b11110) (h15 : bits h2 15 1 = 1) :
    parse32 h1 h2 = parseBranch32 h1 h2 := by
  simp [parse32, bits_9_7_ne hp, hp, h15]

theorem parse32_of_const (hp : bits h1 11 5 = 0b11110) (h9 : bits h1 9 1 = 0) (h15 : bits h2 15 1 = 0) :
    parse32 h1 h2 = parseConst32 h1 h2 := by
  simp [parse32, bits_9_7_ne hp, hp, h9, h15]

theorem parse32_of_loadStore (hp : bits h1 9 7 = 0b1111100) : parse32 h1 h2 = parseLoadStore32 h1 h2 := by
  simp [parse32, bits_11_5_eq_9_7, hp]

theorem parse32_of_shiftReg (hp : bits h1 7 9 = 0b111110100) : parse32 h1 h2 = parseShiftReg32 h1 h2 := by
  have h97 : bits h1 9 7 = bits h1 7 9 / 4 % 128 := bits_inner h1 (k := 2) (by decide)
  simp [parse32, bits_11_5_eq_9_7, h97, hp]

theorem bits_9_7_eq_6_10 (h : Half) : bits h 9 7 = bits h 6 10 / 8 % 128 := bits_inner h (k := 3) (by decide)

theorem bits_6_3_eq_6_10 (h : Half) : bits h 6 3 = bits h 6 10 % 8 :=
  bits_low h (by decide)

theorem bits_4_1_eq_4_3 (h : Half) : bits h 4 1 = bits h 4 3 % 2 := bits_low h (by decide)

theorem bits_10_1_eq_0_12 (h : Half) : bits h 10 1 = bits h 0 12 / 1024 % 2 := bits_inner h (k := 10) (by decide)

theorem bits_11_1_eq_0_12 (h : Half) : bits h 11 1 = bits h 0 12 / 2048 % 2 := bits_inner h (k := 11) (by decide)

theorem bits_8_3_eq (h : Half) : bits h 8 3 = bits h 10 1 * 4 + bits h 9 1 * 2 + bits h 8 1 := by
  simp only [bits]; omega

/-- `POP.W (Rt)` is in the space of LDR with the base SP. -/
theorem loadStoreHead_of_pop (hh1 : h1.toNat = 0xF85D) : LoadStoreHead h1 0 0 0b101 13 := by
  simp [LoadStoreHead, bits, hh1]

/-! ## Families of instructions -/

theorem parse32_of_encMrs {rd : Reg} {r : SysReg} (he : encMrs rd r = [h1, h2]) : parse32 h1 h2 = some (mrs rd r) := by
  obtain ⟨hh1, h12, rfl, hr⟩ := encMrs_eq_iff.1 he
  have h15 : bits h2 15 1 = bits h2 12 4 / 8 % 2 := bits_inner h2 (k := 3) (by decide)
  have h14 : bits h2 14 1 = bits h2 12 4 / 4 % 2 := bits_inner h2 (k := 2) (by decide)
  have h12' : bits h2 12 1 = bits h2 12 4 % 2 := bits_low h2 (by decide)
  rw [h12] at h15 h14 h12'
  have hp : bits h1 11 5 = 0b11110 := by rw [bits, hh1]; decide
  simp [parse32_of_branch hp h15, parseBranch32, h12, h14, h12', hh1, hr]

theorem parse32_of_encMsr {rn : Reg} {r : SysReg} (he : encMsr rn r = [h1, h2]) : parse32 h1 h2 = some (msr rn r) := by
  obtain ⟨⟨h4, rfl⟩, h8, hr⟩ := encMsr_eq_iff.1 he
  have h15 : bits h2 15 1 = bits h2 8 8 / 128 % 2 := bits_inner h2 (k := 7) (by decide)
  have h14 : bits h2 14 1 = bits h2 8 8 / 64 % 2 := bits_inner h2 (k := 6) (by decide)
  have h12 : bits h2 12 1 = bits h2 8 8 / 16 % 2 := bits_inner h2 (k := 4) (by decide)
  have hp : bits h1 11 5 = bits h1 4 12 / 128 % 32 := bits_inner h1 (k := 7) (by decide)
  have hh1 : h1.toNat ≠ 0xF3EF := fun hh1 => by rw [bits, hh1] at h4; cases h4
  rw [h8] at h15 h14 h12
  rw [h4] at hp
  simp [parse32_of_branch hp h15, parseBranch32, h4, h8, h14, h12, hh1, hr]

theorem parse32_of_encBranch24 {link : Nat} {imm24 : BitVec 24} (hl : link < 2) (he : encBranch24 link imm24 = [h1, h2]) :
    parse32 h1 h2 = some (if link = 1 then .bl imm24 else .b32 imm24) := by
  obtain ⟨hp, h15, rfl, h12, rfl⟩ := (encBranch24_eq_iff hl).1 he
  by_cases hlink : bits h2 14 1 = 1 <;> simp [parse32_of_branch hp h15, parseBranch32, h12, hlink, jBit]

theorem parse32_of_bCond {c : Cond} (hp : bits h1 11 5 = 0b11110) (hc : Cond.ofNum (bits h1 6 4) = some c)
    (h14 : bits h2 14 2 = 0b10) (h12 : bits h2 12 1 = 0) (hne : c ≠ .al) :
    parse32 h1 h2 = some (.bCond32 c (BitVec.ofNat 20 (bits h1 10 1 * 524288 + bits h2 11 1 * 262144 +
      bits h2 13 1 * 131072 + bits h1 0 6 * 2048 + bits h2 0 11))) := by
  have hlt : bits h1 6 4 < 14 := by
    rw [Cond.ofNum_eq_some_iff.1 hc]
    cases c with
    | al => exact absurd rfl hne
    | _ => decide
  have h15 : bits h2 15 1 = bits h2 14 2 / 2 % 2 := bits_inner h2 (k := 1) (by decide)
  have h14' : bits h2 14 1 = bits h2 14 2 % 2 := bits_low h2 (by decide)
  have h64 : bits h1 6 4 = bits h1 4 12 / 4 % 16 := bits_inner h1 (k := 2) (by decide)
  have h73 : bits h1 7 3 = bits h1 6 4 / 2 % 8 := bits_inner h1 (k := 1) (by decide)
  have hmrs : h1.toNat ≠ 0xF3EF := fun h => by simp [bits, h] at hlt
  have hmsr : bits h1 4 12 ≠ 0xF38 := by omega
  have hres : bits h1 7 3 ≠ 0b111 := by omega
  rw [h14] at h15 h14'
  simp [parse32_of_branch hp h15, parseBranch32, h12, h14', hmrs, hmsr, hres, hc]

/-! ## Every 32-bit instruction -/

/-- Two halfwords that are the encoding of a well-formed 32-bit instruction parse as that instruction. -/
theorem parse32_of_encode (hw : i.wellFormed = true) (he : encode i = [h1, h2]) : parse32 h1 h2 = some i := by
  cases i with
  | andConst sf rd rn imm12 | bicConst sf rd rn imm12 | orrConst sf rd rn imm12 | ornConst sf rd rn imm12
  | eorConst sf rd rn imm12 | addConst sf rd rn imm12 | rsbConst sf rd rn imm12 =>
    obtain ⟨⟨hp, h9, hop, hs, hrn⟩, h15, hrd, rfl⟩ :=
      (encConst32_eq_iff (by decide) sf.toNat_lt rn.num_lt rd.num_lt).1 he
    have hrd15 : rd.num ≠ 15 := Reg.num_ne_15 (by rintro rfl; simp [Instr.wellFormed, Reg.isGpr] at hw)
    have hrn15 : rn.num ≠ 15 := Reg.num_ne_15 (by rintro rfl; simp [Instr.wellFormed, Reg.isGpr] at hw)
    simp [parse32_of_const hp h9 h15, parseConst32, hop, hs, hrn, hrd, hrd15, hrn15, bit_eq_iff.2 hs, regAt_eq_iff.2 hrn,
      regAt_eq_iff.2 hrd]
  | tstConst rn imm12 | teqConst rn imm12 | cmnConst rn imm12 | cmpConst rn imm12 =>
    obtain ⟨⟨hp, h9, hop, hs, hrn⟩, h15, hrd, rfl⟩ :=
      (encConst32_eq_iff (by decide) (by decide) rn.num_lt (by decide)).1 he
    simp [parse32_of_const hp h9 h15, parseConst32, hop, hs, hrd, regAt_eq_iff.2 hrn]
  | movConst sf rd imm12 | mvnConst sf rd imm12 =>
    obtain ⟨⟨hp, h9, hop, hs, hrn⟩, h15, hrd, rfl⟩ :=
      (encConst32_eq_iff (by decide) sf.toNat_lt (by decide) rd.num_lt).1 he
    simp [parse32_of_const hp h9 h15, parseConst32, hop, hrn, bit_eq_iff.2 hs, regAt_eq_iff.2 hrd]
  | andShift sf rd rn rm ty imm5 | bicShift sf rd rn rm ty imm5 | orrShift sf rd rn rm ty imm5
  | ornShift sf rd rn rm ty imm5 | eorShift sf rd rn rm ty imm5 | addShift sf rd rn rm ty imm5
  | rsbShift sf rd rn rm ty imm5 =>
    obtain ⟨⟨hp, hop, hs, hrn⟩, h15, himm, hrd, hty, hrm⟩ :=
      (encShifted32_eq_iff (by decide) sf.toNat_lt rn.num_lt rd.num_lt ty.num_lt imm5.isLt rm.num_lt).1 he
    have hrd15 : rd.num ≠ 15 := Reg.num_ne_15 (by rintro rfl; simp [Instr.wellFormed, Reg.isGpr] at hw)
    have hrn15 : rn.num ≠ 15 := Reg.num_ne_15 (by rintro rfl; simp [Instr.wellFormed, Reg.isGpr] at hw)
    simp [parse32_of_shifted hp h15, parseShifted32, hop, hs, hrn, hrd, hty, himm, hrd15, hrn15, bit_eq_iff.2 hs,
      regAt_eq_iff.2 hrn, regAt_eq_iff.2 hrd, regAt_eq_iff.2 hrm, (ShiftType.ofNum_eq_iff ty.num_lt).2 rfl]
  | tstShift rn rm ty imm5 | teqShift rn rm ty imm5 | cmnShift rn rm ty imm5 | cmpShift rn rm ty imm5 =>
    obtain ⟨⟨hp, hop, hs, hrn⟩, h15, himm, hrd, hty, hrm⟩ :=
      (encShifted32_eq_iff (by decide) (by decide) rn.num_lt (by decide) ty.num_lt imm5.isLt rm.num_lt).1 he
    simp [parse32_of_shifted hp h15, parseShifted32, hop, hs, hrd, hty, himm, regAt_eq_iff.2 hrn, regAt_eq_iff.2 hrm,
      (ShiftType.ofNum_eq_iff ty.num_lt).2 rfl]
  | mvnShift sf rd rm ty imm5 =>
    obtain ⟨⟨hp, hop, hs, hrn⟩, h15, himm, hrd, hty, hrm⟩ :=
      (encShifted32_eq_iff (by decide) sf.toNat_lt (by decide) rd.num_lt ty.num_lt imm5.isLt rm.num_lt).1 he
    simp [parse32_of_shifted hp h15, parseShifted32, hop, hrn, hty, himm, bit_eq_iff.2 hs, regAt_eq_iff.2 hrd,
      regAt_eq_iff.2 hrm, (ShiftType.ofNum_eq_iff ty.num_lt).2 rfl]
  | movReg32 sf rd rm | rrx sf rd rm =>
    obtain ⟨⟨hp, hop, hs, hrn⟩, h15, himm, hrd, hty, hrm⟩ :=
      (encShifted32_eq_iff (by decide) sf.toNat_lt (by decide) rd.num_lt (by decide) (by decide) rm.num_lt).1 he
    simp [parse32_of_shifted hp h15, parseShifted32, parseMoveShift32, hop, hrn, hty, himm, bit_eq_iff.2 hs,
      regAt_eq_iff.2 hrd, regAt_eq_iff.2 hrm]
  | lslImm32 sf rd rm imm5 | rorImm32 sf rd rm imm5 =>
    obtain ⟨⟨hp, hop, hs, hrn⟩, h15, himm, hrd, hty, hrm⟩ :=
      (encShifted32_eq_iff (by decide) sf.toNat_lt (by decide) rd.num_lt (by decide) imm5.isLt rm.num_lt).1 he
    have hne : imm5.toNat ≠ 0 := fun hzero => by
      obtain rfl : imm5 = 0#5 := BitVec.eq_of_toNat_eq hzero
      simp [Instr.wellFormed] at hw
    simp [parse32_of_shifted hp h15, parseShifted32, parseMoveShift32, hop, hrn, hty, himm, hne, bit_eq_iff.2 hs,
      regAt_eq_iff.2 hrd, regAt_eq_iff.2 hrm]
  | lsrImm32 sf rd rm imm5 | asrImm32 sf rd rm imm5 =>
    obtain ⟨⟨hp, hop, hs, hrn⟩, h15, himm, hrd, hty, hrm⟩ :=
      (encShifted32_eq_iff (by decide) sf.toNat_lt (by decide) rd.num_lt (by decide) imm5.isLt rm.num_lt).1 he
    simp [parse32_of_shifted hp h15, parseShifted32, parseMoveShift32, hop, hrn, hty, himm, bit_eq_iff.2 hs,
      regAt_eq_iff.2 hrd, regAt_eq_iff.2 hrm]
  | lslReg32 sf rd rm rs | lsrReg32 sf rd rm rs | asrReg32 sf rd rm rs | rorReg32 sf rd rm rs =>
    obtain ⟨⟨hp, hty, rfl, rfl⟩, h12, rfl, h4, rfl⟩ := (encShiftReg32_eq_iff (by decide)).1 he
    simp [parse32_of_shiftReg hp, parseShiftReg32, hty, h12, h4]
  | bCond32 c imm20 =>
    obtain ⟨⟨hp, hc⟩, h14, h12, rfl⟩ := encode_bCond32_eq_iff.1 he
    have hne : c ≠ .al := by simpa [Instr.wellFormed] using hw
    exact parse32_of_bCond hp hc h14 h12 hne
  | b32 imm24 => exact parse32_of_encBranch24 (by decide) he
  | bl imm24 => exact parse32_of_encBranch24 (by decide) he
  | getPrimask r | getFaultmask r | getBasepri r | getControl r | getMsp r | getPsp r => exact parse32_of_encMrs he
  | setPrimask r | setFaultmask r | setBasepri r | setControl r | setMsp r | setPsp r => exact parse32_of_encMsr he
  | ldm32 w rn p m list =>
    obtain ⟨⟨hop, hw1, h4, hrn⟩, rfl, rfl, h13, rfl⟩ := (encMultiple32_eq_iff (by decide) w.toNat_lt rn.num_lt).1 he
    have hpop : ¬(bits h1 5 1 = 1 ∧ bits h1 0 4 = 13) := by
      rw [hw1, hrn]
      rintro ⟨hw1, hsp⟩
      obtain rfl : Reg.sp = rn := (Reg.ofNum_eq_iff (by decide)).2 hsp.symm
      simp_all [Instr.wellFormed]
    simp [parse32_of_multiple, parseMultiple32, bits_9_7_eq_6_10, bits_6_3_eq_6_10, hop, h4, h13, hpop, bit_eq_iff.2 hw1,
      regAt_eq_iff.2 hrn]
  | ldmdb w rn p m list =>
    obtain ⟨⟨hop, hw1, h4, hrn⟩, rfl, rfl, h13, rfl⟩ := (encMultiple32_eq_iff (by decide) w.toNat_lt rn.num_lt).1 he
    simp [parse32_of_multiple, parseMultiple32, bits_9_7_eq_6_10, bits_6_3_eq_6_10, hop, h4, h13, bit_eq_iff.2 hw1,
      regAt_eq_iff.2 hrn]
  | popW p m list =>
    obtain ⟨⟨hop, hw1, h4, hrn⟩, rfl, rfl, h13, rfl⟩ := (encMultiple32_eq_iff (by decide) (by decide) (by decide)).1 he
    simp [parse32_of_multiple, parseMultiple32, bits_9_7_eq_6_10, bits_6_3_eq_6_10, hop, h4, h13, hw1, hrn]
  | ldrImm12 rt rn imm12 | ldrhImm12 rt rn imm12 | ldrshImm12 rt rn imm12 | strImm12 rt rn imm12
  | strhImm12 rt rn imm12 =>
    obtain ⟨⟨hp, hsg, hx, hop, hrn⟩, rfl, rfl⟩ := (encLong32_eq_iff (by decide) (by decide) (by decide)).1 he
    have hrn15 : rn.num ≠ 15 := Reg.num_ne_15 (by rintro rfl; simp [Instr.wellFormed, Reg.notPc] at hw)
    simp [parse32_of_loadStore hp, parseLoadStore32, bits_4_1_eq_4_3, hsg, hx, hop, hrn, hrn15, regAt_eq_iff.2 hrn]
  | ldrNeg8 rt rn imm8 | ldrhNeg8 rt rn imm8 | ldrshNeg8 rt rn imm8 | strNeg8 rt rn imm8 | strhNeg8 rt rn imm8
  | ldrt rt rn imm8 | ldrht rt rn imm8 | ldrsht rt rn imm8 | strt rt rn imm8 | strht rt rn imm8 =>
    obtain ⟨⟨hp, hsg, hx, hop, hrn⟩, rfl, h11, h10, h9, h8, rfl⟩ :=
      (encIndexed32_eq_iff (by decide) (by decide) (by decide) (by decide) (by decide) (by decide)).1 he
    have hrn15 : rn.num ≠ 15 := Reg.num_ne_15 (by rintro rfl; simp [Instr.wellFormed, Reg.notPc] at hw)
    have hpop : bits h2 0 12 ≠ 0xB04 := fun hpop => by
      rw [bits_10_1_eq_0_12, hpop] at h10; cases h10
    simp [parse32_of_loadStore hp, parseLoadStore32, parseIndexed32, bits_4_1_eq_4_3, bits_8_3_eq, hsg, hx, hop, hrn,
      hrn15, hpop, h11, h10, h9, h8, regAt_eq_iff.2 hrn]
  | ldrPre rt rn u imm8 | ldrhPre rt rn u imm8 | ldrshPre rt rn u imm8 | strPre rt rn u imm8 | strhPre rt rn u imm8 =>
    obtain ⟨⟨hp, hsg, hx, hop, hrn⟩, rfl, h11, h10, h9, h8, rfl⟩ :=
      (encIndexed32_eq_iff (by decide) (by decide) (by decide) (by decide) u.toNat_lt (by decide)).1 he
    have hrn15 : rn.num ≠ 15 := 
      Reg.num_ne_15 (by rintro rfl; simp [Instr.wellFormed, indexOk, Reg.notPc] at hw)
    have hpop : bits h2 0 12 ≠ 0xB04 := fun hpop => by
      rw [bits_10_1_eq_0_12, hpop] at h10; cases h10
    simp [parse32_of_loadStore hp, parseLoadStore32, parseIndexed32, bits_4_1_eq_4_3, hsg, hx, hop, hrn,
      hrn15, hpop, h11, h10, h8, regAt_eq_iff.2 hrn, bit_eq_iff.2 h9]
  | ldrhPost rt rn u imm8 | ldrshPost rt rn u imm8 | strPost rt rn u imm8 | strhPost rt rn u imm8 =>
    obtain ⟨⟨hp, hsg, hx, hop, hrn⟩, rfl, h11, h10, h9, h8, rfl⟩ :=
      (encIndexed32_eq_iff (by decide) (by decide) (by decide) (by decide) u.toNat_lt (by decide)).1 he
    have hrn15 : rn.num ≠ 15 := 
      Reg.num_ne_15 (by rintro rfl; simp [Instr.wellFormed, indexOk, Reg.notPc] at hw)
    simp [parse32_of_loadStore hp, parseLoadStore32, parseIndexed32, bits_4_1_eq_4_3, hsg, hx, hop, hrn,
      hrn15, h11, h10, h8, regAt_eq_iff.2 hrn, bit_eq_iff.2 h9]
  | ldrPost rt rn u imm8 =>
    obtain ⟨⟨hp, hsg, hx, hop, hrn⟩, rfl, h11, h10, h9, h8, rfl⟩ :=
      (encIndexed32_eq_iff (by decide) (by decide) (by decide) (by decide) u.toNat_lt (by decide)).1 he
    have hrn15 : rn.num ≠ 15 :=
      Reg.num_ne_15 (by rintro rfl; simp [Instr.wellFormed, indexOk, Reg.notPc] at hw)
    have hpop : ¬(h1.toNat = 0xF85D ∧ bits h2 0 12 = 0xB04) := by
      rintro ⟨hh1, h0⟩
      obtain ⟨-, -, -, -, hsp⟩ := loadStoreHead_of_pop hh1
      obtain rfl : Reg.sp = rn := (Reg.ofNum_eq_iff (by decide)).2 (hsp.symm.trans hrn)
      have hu : bits h2 9 1 = bits h2 0 12 / 512 % 2 := bits_inner h2 (k := 9) (by decide)
      have himm : bits h2 0 8 = bits h2 0 12 % 256 := bits_low h2 (by decide)
      rw [h0] at hu himm
      obtain rfl : true = u := (bit_eq_iff.2 hu).symm.trans (bit_eq_iff.2 h9)
      simp [Instr.wellFormed, himm] at hw
    simp [parse32_of_loadStore hp, parseLoadStore32, parseIndexed32, bits_4_1_eq_4_3, hsg, hx, hop, hrn,
      hrn15, hpop, h11, h10, h8, regAt_eq_iff.2 hrn, bit_eq_iff.2 h9]
  | ldrReg32 rt rn rm imm2 | ldrhReg32 rt rn rm imm2 | ldrshReg32 rt rn rm imm2 | strReg32 rt rn rm imm2
  | strhReg32 rt rn rm imm2 =>
    obtain ⟨⟨hp, hsg, hx, hop, hrn⟩, rfl, h6, rfl, rfl⟩ :=
      (encRegOffset32_eq_iff (by decide) (by decide) (by decide)).1 he
    have hrn15 : rn.num ≠ 15 := Reg.num_ne_15 (by rintro rfl; simp [Instr.wellFormed, Reg.notPc] at hw)
    have h11 : bits h2 11 1 = bits h2 6 6 / 32 % 2 := bits_inner h2 (k := 5) (by decide)
    rw [h6] at h11
    have hpop : bits h2 0 12 ≠ 0xB04 := fun hpop => by
      rw [bits_11_1_eq_0_12, hpop] at h11; cases h11
    simp [parse32_of_loadStore hp, parseLoadStore32, parseIndexed32, bits_4_1_eq_4_3, hsg, hx, hop, hrn,
      hrn15, hpop, h11, h6, regAt_eq_iff.2 hrn]
  | ldrLit32 u rt imm12 | ldrhLit32 u rt imm12 | ldrshLit32 u rt imm12 =>
    obtain ⟨⟨hp, hsg, hx, hop, hrn⟩, rfl, rfl⟩ := (encLiteral32_eq_iff (by decide) (by decide)).1 he
    simp [parse32_of_loadStore hp, parseLoadStore32, bits_4_1_eq_4_3, hsg, hop, hrn, bit_eq_iff.2 hx]
  | popWOne rt =>
    obtain ⟨hh1, rfl, h0⟩ := encode_popWOne_eq_iff.1 he
    obtain ⟨hp, hsg, hx, hop, hrn⟩ := loadStoreHead_of_pop hh1
    simp [parse32_of_loadStore hp, parseLoadStore32, hsg, hx, hop, hrn, hh1, h0]
  | _ => cases he

end
end Sys2Proof
end

section
/-! SUPPORT. What two halfwords parse as is encoded by them (30_encoding R104, R116). -/

namespace Sys2Proof

section
variable {h1 h2 : Half} {i : Instr}

/-! ## Data processing -/

theorem encConst32_of_fields {op4 s rn rd : Nat} (hp : bits h1 11 5 = 0b11110) (h9 : bits h1 9 1 = 0)
    (h15 : bits h2 15 1 = 0) (hop : bits h1 5 4 = op4) (hs : bits h1 4 1 = s) (hrn : bits h1 0 4 = rn)
    (hrd : bits h2 8 4 = rd) :
    encConst32 op4 s rn rd (BitVec.ofNat 12 (bits h1 10 1 * 2048 + bits h2 12 3 * 256 + bits h2 0 8)) = [h1, h2] :=
  (encConst32_eq_iff (hop ▸ bits_lt h1 5 4) (hs ▸ bits_lt h1 4 1) (hrn ▸ bits_lt h1 0 4) (hrd ▸ bits_lt h2 8 4)).2
    ⟨⟨hp, h9, hop, hs, hrn⟩, h15, hrd, rfl⟩

theorem encode_of_parseConst32 (hp : bits h1 11 5 = 0b11110) (h9 : bits h1 9 1 = 0) (h15 : bits h2 15 1 = 0)
    (hi : parseConst32 h1 h2 = some i) : encode i = [h1, h2] := by
  have hs : bits h1 4 1 = (bit h1 4).toNat := bit_eq_iff.1 rfl
  have hrn : bits h1 0 4 = (regAt h1 0).num := regAt_eq_iff.1 rfl
  have hrd : bits h2 8 4 = (regAt h2 8).num := regAt_eq_iff.1 rfl
  rw [parseConst32] at hi
  obtain ⟨hop, hi⟩ | ⟨-, hi⟩ := ite_eq_iff.1 hi
  · obtain ⟨⟨hs1, hpc⟩, ⟨⟩⟩ | ⟨-, ⟨⟩⟩ := ite_eq_iff.1 hi
    · exact encConst32_of_fields hp h9 h15 hop hs1 hrn hpc
    · exact encConst32_of_fields hp h9 h15 hop hs hrn hrd
  obtain ⟨hop, ⟨⟩⟩ | ⟨-, hi⟩ := ite_eq_iff.1 hi
  · exact encConst32_of_fields hp h9 h15 hop hs hrn hrd
  iterate 2
    obtain ⟨hop, hi⟩ | ⟨-, hi⟩ := ite_eq_iff.1 hi
    · obtain ⟨hpc, ⟨⟩⟩ | ⟨-, ⟨⟩⟩ := ite_eq_iff.1 hi
      · exact encConst32_of_fields hp h9 h15 hop hs hpc hrd
      · exact encConst32_of_fields hp h9 h15 hop hs hrn hrd
  iterate 2
    obtain ⟨hop, hi⟩ | ⟨-, hi⟩ := ite_eq_iff.1 hi
    · obtain ⟨⟨hs1, hpc⟩, ⟨⟩⟩ | ⟨-, ⟨⟩⟩ := ite_eq_iff.1 hi
      · exact encConst32_of_fields hp h9 h15 hop hs1 hrn hpc
      · exact encConst32_of_fields hp h9 h15 hop hs hrn hrd
  obtain ⟨hop, hi⟩ | ⟨-, hi⟩ := ite_eq_iff.1 hi
  · obtain ⟨⟨hs1, hpc⟩, ⟨⟩⟩ | ⟨-, ⟨⟩⟩ := ite_eq_iff.1 hi
    exact encConst32_of_fields hp h9 h15 hop hs1 hrn hpc
  obtain ⟨hop, ⟨⟩⟩ | ⟨-, ⟨⟩⟩ := ite_eq_iff.1 hi
  exact encConst32_of_fields hp h9 h15 hop hs hrn hrd

theorem encShifted32_of_fields {op4 s rn rd ty imm5 rm : Nat} (hp : bits h1 9 7 = 0b1110101) (h15 : bits h2 15 1 = 0)
    (hop : bits h1 5 4 = op4) (hs : bits h1 4 1 = s) (hrn : bits h1 0 4 = rn) (hrd : bits h2 8 4 = rd)
    (hty : bits h2 4 2 = ty) (himm : bits h2 12 3 * 4 + bits h2 6 2 = imm5) (hrm : bits h2 0 4 = rm) :
    encShifted32 op4 s rn rd ty imm5 rm = [h1, h2] := by
  have h12 := bits_lt h2 12 3
  have h6 := bits_lt h2 6 2
  exact (encShifted32_eq_iff (hop ▸ bits_lt h1 5 4) (hs ▸ bits_lt h1 4 1) (hrn ▸ bits_lt h1 0 4) (hrd ▸ bits_lt h2 8 4)
    (hty ▸ bits_lt h2 4 2) (by omega) (hrm ▸ bits_lt h2 0 4)).2 ⟨⟨hp, hop, hs, hrn⟩, h15, himm, hrd, hty, hrm⟩

/-- The split length field of a shift by an immediate, as a number. -/
theorem shiftLength_eq (h : Half) :
    bits h 12 3 * 4 + bits h 6 2 = (BitVec.ofNat 5 (bits h 12 3 * 4 + bits h 6 2)).toNat := by
  have h12 := bits_lt h 12 3
  have h6 := bits_lt h 6 2
  rw [BitVec.toNat_ofNat]
  omega

theorem encode_of_parseMoveShift32 (hp : bits h1 9 7 = 0b1110101) (h15 : bits h2 15 1 = 0) (hop : bits h1 5 4 = 0b0010)
    (hpc : bits h1 0 4 = 15) (hi : parseMoveShift32 h1 h2 = some i) : encode i = [h1, h2] := by
  have hs : bits h1 4 1 = (bit h1 4).toNat := bit_eq_iff.1 rfl
  have hrd : bits h2 8 4 = (regAt h2 8).num := regAt_eq_iff.1 rfl
  have hrm : bits h2 0 4 = (regAt h2 0).num := regAt_eq_iff.1 rfl
  have htylt := bits_lt h2 4 2
  rw [parseMoveShift32] at hi
  obtain ⟨hty, hi⟩ | ⟨hne0, hi⟩ := ite_eq_iff.1 hi
  · obtain ⟨hzero, ⟨⟩⟩ | ⟨-, ⟨⟩⟩ := ite_eq_iff.1 hi
    · exact encShifted32_of_fields hp h15 hop hs hpc hrd hty hzero hrm
    · exact encShifted32_of_fields hp h15 hop hs hpc hrd hty (shiftLength_eq h2) hrm
  obtain ⟨hty, ⟨⟩⟩ | ⟨hne1, hi⟩ := ite_eq_iff.1 hi
  · exact encShifted32_of_fields hp h15 hop hs hpc hrd hty (shiftLength_eq h2) hrm
  obtain ⟨hty, ⟨⟩⟩ | ⟨hne2, hi⟩ := ite_eq_iff.1 hi
  · exact encShifted32_of_fields hp h15 hop hs hpc hrd hty (shiftLength_eq h2) hrm
  obtain ⟨hzero, ⟨⟩⟩ | ⟨-, ⟨⟩⟩ := ite_eq_iff.1 hi
  · exact encShifted32_of_fields hp h15 hop hs hpc hrd (by omega) hzero hrm
  · exact encShifted32_of_fields hp h15 hop hs hpc hrd (by omega) (shiftLength_eq h2) hrm

theorem encode_of_parseShifted32 (hp : bits h1 9 7 = 0b1110101) (h15 : bits h2 15 1 = 0)
    (hi : parseShifted32 h1 h2 = some i) : encode i = [h1, h2] := by
  have hs : bits h1 4 1 = (bit h1 4).toNat := bit_eq_iff.1 rfl
  have hrn : bits h1 0 4 = (regAt h1 0).num := regAt_eq_iff.1 rfl
  have hrd : bits h2 8 4 = (regAt h2 8).num := regAt_eq_iff.1 rfl
  have hrm : bits h2 0 4 = (regAt h2 0).num := regAt_eq_iff.1 rfl
  have hty : bits h2 4 2 = (ShiftType.ofNum (bits h2 4 2)).num := (ShiftType.ofNum_eq_iff (bits_lt h2 4 2)).1 rfl
  have himm := shiftLength_eq h2
  rw [parseShifted32] at hi
  obtain ⟨hop, hi⟩ | ⟨-, hi⟩ := ite_eq_iff.1 hi
  · obtain ⟨⟨hs1, hpc⟩, ⟨⟩⟩ | ⟨-, ⟨⟩⟩ := ite_eq_iff.1 hi
    · exact encShifted32_of_fields hp h15 hop hs1 hrn hpc hty himm hrm
    · exact encShifted32_of_fields hp h15 hop hs hrn hrd hty himm hrm
  obtain ⟨hop, ⟨⟩⟩ | ⟨-, hi⟩ := ite_eq_iff.1 hi
  · exact encShifted32_of_fields hp h15 hop hs hrn hrd hty himm hrm
  obtain ⟨hop, hi⟩ | ⟨-, hi⟩ := ite_eq_iff.1 hi
  · obtain ⟨hpc, hi⟩ | ⟨-, ⟨⟩⟩ := ite_eq_iff.1 hi
    · exact encode_of_parseMoveShift32 hp h15 hop hpc hi
    · exact encShifted32_of_fields hp h15 hop hs hrn hrd hty himm hrm
  obtain ⟨hop, hi⟩ | ⟨-, hi⟩ := ite_eq_iff.1 hi
  · obtain ⟨hpc, ⟨⟩⟩ | ⟨-, ⟨⟩⟩ := ite_eq_iff.1 hi
    · exact encShifted32_of_fields hp h15 hop hs hpc hrd hty himm hrm
    · exact encShifted32_of_fields hp h15 hop hs hrn hrd hty himm hrm
  iterate 2
    obtain ⟨hop, hi⟩ | ⟨-, hi⟩ := ite_eq_iff.1 hi
    · obtain ⟨⟨hs1, hpc⟩, ⟨⟩⟩ | ⟨-, ⟨⟩⟩ := ite_eq_iff.1 hi
      · exact encShifted32_of_fields hp h15 hop hs1 hrn hpc hty himm hrm
      · exact encShifted32_of_fields hp h15 hop hs hrn hrd hty himm hrm
  obtain ⟨hop, hi⟩ | ⟨-, hi⟩ := ite_eq_iff.1 hi
  · obtain ⟨⟨hs1, hpc⟩, ⟨⟩⟩ | ⟨-, ⟨⟩⟩ := ite_eq_iff.1 hi
    exact encShifted32_of_fields hp h15 hop hs1 hrn hpc hty himm hrm
  obtain ⟨hop, ⟨⟩⟩ | ⟨-, ⟨⟩⟩ := ite_eq_iff.1 hi
  exact encShifted32_of_fields hp h15 hop hs hrn hrd hty himm hrm

theorem encode_of_parseShiftReg32 (hp : bits h1 7 9 = 0b111110100) (hi : parseShiftReg32 h1 h2 = some i) :
    encode i = [h1, h2] := by
  have hlt := bits_lt h1 5 2
  rw [parseShiftReg32] at hi
  obtain ⟨⟨h12, h4⟩, hi⟩ | ⟨-, ⟨⟩⟩ := ite_eq_iff.1 hi
  obtain ⟨hty, ⟨⟩⟩ | ⟨hne0, hi⟩ := ite_eq_iff.1 hi
  · exact (encShiftReg32_eq_iff (by decide)).2 ⟨⟨hp, hty, rfl, rfl⟩, h12, rfl, h4, rfl⟩
  obtain ⟨hty, ⟨⟩⟩ | ⟨hne1, hi⟩ := ite_eq_iff.1 hi
  · exact (encShiftReg32_eq_iff (by decide)).2 ⟨⟨hp, hty, rfl, rfl⟩, h12, rfl, h4, rfl⟩
  obtain ⟨hty, ⟨⟩⟩ | ⟨hne2, ⟨⟩⟩ := ite_eq_iff.1 hi
  · exact (encShiftReg32_eq_iff (by decide)).2 ⟨⟨hp, hty, rfl, rfl⟩, h12, rfl, h4, rfl⟩
  · exact (encShiftReg32_eq_iff (by decide)).2 ⟨⟨hp, by omega, rfl, rfl⟩, h12, rfl, h4, rfl⟩

/-! ## Multiple loads -/

theorem encode_of_parseMultiple32 (hp : bits h1 9 7 = 0b1110100) (hi : parseMultiple32 h1 h2 = some i) :
    encode i = [h1, h2] := by
  have hop : bits h1 6 10 = bits h1 9 7 * 8 + bits h1 6 3 := bits_add h1 6 3 7
  rw [parseMultiple32] at hi
  obtain ⟨⟨h4, h13⟩, hi⟩ | ⟨-, ⟨⟩⟩ := ite_eq_iff.1 hi
  obtain ⟨h6, hi⟩ | ⟨-, hi⟩ := ite_eq_iff.1 hi
  · obtain ⟨⟨hw, hsp⟩, ⟨⟩⟩ | ⟨-, ⟨⟩⟩ := ite_eq_iff.1 hi
    · exact (encMultiple32_eq_iff (by decide) (by decide) (by decide)).2 ⟨⟨by omega, hw, h4, hsp⟩, rfl, rfl, h13, rfl⟩
    · exact (encMultiple32_eq_iff (by decide) (Bool.toNat_lt _) (Reg.num_lt _)).2
        ⟨⟨by omega, bit_eq_iff.1 rfl, h4, regAt_eq_iff.1 rfl⟩, rfl, rfl, h13, rfl⟩
  · obtain ⟨h6, ⟨⟩⟩ | ⟨-, ⟨⟩⟩ := ite_eq_iff.1 hi
    exact (encMultiple32_eq_iff (by decide) (Bool.toNat_lt _) (Reg.num_lt _)).2
      ⟨⟨by omega, bit_eq_iff.1 rfl, h4, regAt_eq_iff.1 rfl⟩, rfl, rfl, h13, rfl⟩

/-! ## Branches and special registers -/

theorem encode_mrs (rd : Reg) (r : SysReg) : encode (mrs rd r) = encMrs rd r := by cases r <;> rfl

theorem encode_msr (rn : Reg) (r : SysReg) : encode (msr rn r) = encMsr rn r := by cases r <;> rfl

theorem encode_of_parseBranch32 (hp : bits h1 11 5 = 0b11110) (h15 : bits h2 15 1 = 1)
    (hi : parseBranch32 h1 h2 = some i) : encode i = [h1, h2] := by
  have h14lt := bits_lt h2 14 1
  have h12lt := bits_lt h2 12 1
  rw [parseBranch32] at hi
  obtain ⟨h12, hi⟩ | ⟨h12, hi⟩ := ite_eq_iff.1 hi
  · obtain ⟨h14, ⟨⟩⟩ | ⟨h14, ⟨⟩⟩ := ite_eq_iff.1 hi
    · exact (encBranch24_eq_iff (by decide)).2 ⟨hp, h15, h14, h12, rfl⟩
    · exact (encBranch24_eq_iff (by decide)).2 ⟨hp, h15, by omega, h12, rfl⟩
  obtain ⟨-, ⟨⟩⟩ | ⟨h14, hi⟩ := ite_eq_iff.1 hi
  obtain ⟨⟨hh1, htop⟩, hi⟩ | ⟨-, hi⟩ := ite_eq_iff.1 hi
  · obtain ⟨r, hr, rfl⟩ := Option.map_eq_some_iff.1 hi
    exact (encode_mrs _ r).trans (encMrs_eq_iff.2 ⟨hh1, htop, rfl, hr⟩)
  obtain ⟨⟨h4, htop⟩, hi⟩ | ⟨-, hi⟩ := ite_eq_iff.1 hi
  · obtain ⟨r, hr, rfl⟩ := Option.map_eq_some_iff.1 hi
    exact (encode_msr _ r).trans (encMsr_eq_iff.2 ⟨⟨h4, rfl⟩, htop, hr⟩)
  obtain ⟨-, ⟨⟩⟩ | ⟨-, hi⟩ := ite_eq_iff.1 hi
  obtain ⟨c, hc, rfl⟩ := Option.map_eq_some_iff.1 hi
  have htop : bits h2 14 2 = bits h2 15 1 * 2 + bits h2 14 1 := bits_add h2 14 1 1
  exact encode_bCond32_eq_iff.2 ⟨⟨hp, hc⟩, by omega, by omega, rfl⟩

/-! ## Loads and stores -/

/-- The forms of one mnemonic with an index or a register offset. -/
theorem encode_of_parseIndexed32 {sg size l : Nat} {rn : Reg} {neg unpriv : Reg → BitVec 8 → Instr}
    {pre post : Reg → Bool → BitVec 8 → Instr} {reg : Reg → Reg → BitVec 2 → Instr} (hsg : sg < 2) (hsize : size < 4)
    (hl : l < 2) (hhead : LoadStoreHead h1 sg 0 (size * 2 + l) rn.num)
    (hneg : ∀ rt imm8, encode (neg rt imm8) = encIndexed32 sg size l 1 0 0 rn rt imm8)
    (hpre : ∀ rt u imm8, encode (pre rt u imm8) = encIndexed32 sg size l 1 u.toNat 1 rn rt imm8)
    (hpost : ∀ rt u imm8, encode (post rt u imm8) = encIndexed32 sg size l 0 u.toNat 1 rn rt imm8)
    (hunpriv : ∀ rt imm8, encode (unpriv rt imm8) = encIndexed32 sg size l 1 1 0 rn rt imm8)
    (hreg : ∀ rt rm imm2, encode (reg rt rm imm2) = encRegOffset32 sg size l rn rt rm imm2)
    (hi : parseIndexed32 h2 neg pre post unpriv reg = some i) : encode i = [h1, h2] := by
  have h8 := bits_8_3_eq h2
  have h10lt := bits_lt h2 10 1
  have h9lt := bits_lt h2 9 1
  have h8lt := bits_lt h2 8 1
  rw [parseIndexed32] at hi
  obtain ⟨h11, hi⟩ | ⟨-, hi⟩ := ite_eq_iff.1 hi
  · obtain ⟨hw, hi⟩ | ⟨hw, hi⟩ := ite_eq_iff.1 hi
    · obtain ⟨hp, ⟨⟩⟩ | ⟨hp, ⟨⟩⟩ := ite_eq_iff.1 hi
      · exact (hpre _ _ _).trans ((encIndexed32_eq_iff hsg hsize hl (by decide) (Bool.toNat_lt _) (by decide)).2
          ⟨hhead, rfl, h11, hp, bit_eq_iff.1 rfl, hw, rfl⟩)
      · exact (hpost _ _ _).trans ((encIndexed32_eq_iff hsg hsize hl (by decide) (Bool.toNat_lt _) (by decide)).2
          ⟨hhead, rfl, h11, by omega, bit_eq_iff.1 rfl, hw, rfl⟩)
    obtain ⟨hpuw, ⟨⟩⟩ | ⟨-, hi⟩ := ite_eq_iff.1 hi
    · exact (hneg _ _).trans ((encIndexed32_eq_iff hsg hsize hl (by decide) (by decide) (by decide)).2
        ⟨hhead, rfl, h11, by omega, by omega, by omega, rfl⟩)
    obtain ⟨hpuw, ⟨⟩⟩ | ⟨-, ⟨⟩⟩ := ite_eq_iff.1 hi
    exact (hunpriv _ _).trans ((encIndexed32_eq_iff hsg hsize hl (by decide) (by decide) (by decide)).2
      ⟨hhead, rfl, h11, by omega, by omega, by omega, rfl⟩)
  · obtain ⟨h6, ⟨⟩⟩ | ⟨-, ⟨⟩⟩ := ite_eq_iff.1 hi
    exact (hreg _ _ _).trans ((encRegOffset32_eq_iff hsg hsize hl).2 ⟨hhead, rfl, h6, rfl, rfl⟩)

theorem encode_of_parseLoadStore32 (hp : bits h1 9 7 = 0b1111100) (hi : parseLoadStore32 h1 h2 = some i) :
    encode i = [h1, h2] := by
  have hrn : bits h1 0 4 = (regAt h1 0).num := regAt_eq_iff.1 rfl
  have hu : bits h1 7 1 = (bit h1 7).toNat := bit_eq_iff.1 rfl
  have hxlt := bits_lt h1 7 1
  rw [parseLoadStore32] at hi
  obtain ⟨⟨-, hpc⟩, hi⟩ | ⟨-, hi⟩ := ite_eq_iff.1 hi
  · iterate 3
      obtain ⟨⟨hsg, hop⟩, ⟨⟩⟩ | ⟨-, hi⟩ := ite_eq_iff.1 hi
      · exact (encLiteral32_eq_iff (by decide) (by decide)).2 ⟨⟨hp, hsg, hu, hop, hpc⟩, rfl, rfl⟩
    cases hi
  obtain ⟨⟨hsg, hop⟩, hi⟩ | ⟨-, hi⟩ := ite_eq_iff.1 hi
  · obtain ⟨hx, ⟨⟩⟩ | ⟨hx, hi⟩ := ite_eq_iff.1 hi
    · exact (encLong32_eq_iff (by decide) (by decide) (by decide)).2 ⟨⟨hp, hsg, hx, hop, hrn⟩, rfl, rfl⟩
    obtain ⟨⟨hh1, h0⟩, ⟨⟩⟩ | ⟨-, hi⟩ := ite_eq_iff.1 hi
    · exact encode_popWOne_eq_iff.2 ⟨hh1, rfl, h0⟩
    · exact encode_of_parseIndexed32 (by decide) (by decide) (by decide) ⟨hp, hsg, by omega, hop, hrn⟩
        (fun _ _ => rfl) (fun _ _ _ => rfl) (fun _ _ _ => rfl) (fun _ _ => rfl) (fun _ _ _ => rfl) hi
  iterate 4
    obtain ⟨⟨hsg, hop⟩, hi⟩ | ⟨-, hi⟩ := ite_eq_iff.1 hi
    · obtain ⟨hx, ⟨⟩⟩ | ⟨hx, hi⟩ := ite_eq_iff.1 hi
      · exact (encLong32_eq_iff (by decide) (by decide) (by decide)).2 ⟨⟨hp, hsg, hx, hop, hrn⟩, rfl, rfl⟩
      · exact encode_of_parseIndexed32 (by decide) (by decide) (by decide) ⟨hp, hsg, by omega, hop, hrn⟩
          (fun _ _ => rfl) (fun _ _ _ => rfl) (fun _ _ _ => rfl) (fun _ _ => rfl) (fun _ _ _ => rfl) hi
  cases hi

/-! ## Every 32-bit pattern -/

/-- Two halfwords that parse are the encoding of what they parse as. -/
theorem encode_of_parse32 (hi : parse32 h1 h2 = some i) : encode i = [h1, h2] := by
  rw [parse32] at hi
  obtain ⟨hp, hi⟩ | ⟨-, hi⟩ := ite_eq_iff.1 hi
  · exact encode_of_parseMultiple32 hp hi
  obtain ⟨hp, hi⟩ | ⟨-, hi⟩ := ite_eq_iff.1 hi
  · obtain ⟨h15, hi⟩ | ⟨-, ⟨⟩⟩ := ite_eq_iff.1 hi
    exact encode_of_parseShifted32 hp h15 hi
  obtain ⟨hp, hi⟩ | ⟨-, hi⟩ := ite_eq_iff.1 hi
  · obtain ⟨h15, hi⟩ | ⟨h15, hi⟩ := ite_eq_iff.1 hi
    · exact encode_of_parseBranch32 hp h15 hi
    obtain ⟨h9, hi⟩ | ⟨-, ⟨⟩⟩ := ite_eq_iff.1 hi
    have h15lt := bits_lt h2 15 1
    exact encode_of_parseConst32 hp h9 (by omega) hi
  obtain ⟨hp, hi⟩ | ⟨-, hi⟩ := ite_eq_iff.1 hi
  · exact encode_of_parseLoadStore32 hp hi
  obtain ⟨hp, hi⟩ | ⟨-, ⟨⟩⟩ := ite_eq_iff.1 hi
  exact encode_of_parseShiftReg32 hp hi

end

end Sys2Proof
end

section
/-! SUPPORT. Decoding and encoding are inverse to each other (30_encoding R90, R93, R104, R119), and what the step does with a
pattern that is no instruction. -/

namespace Sys2Proof

section
variable {h h1 h2 : Half} {i : Instr}

/-! ## Halfwords -/

theorem accepted_eq_some_iff {p : Option Instr} : accepted p = some i ↔ p = some i ∧ i.wellFormed = true :=
  Option.filter_eq_some_iff

/-- A halfword decodes to exactly the well-formed instruction that it encodes. -/
theorem decode16_eq_some_iff : decode16 h = some i ↔ i.wellFormed = true ∧ encode i = [h] := by
  rw [decode16, accepted_eq_some_iff]
  exact ⟨fun ⟨hi, hw⟩ => ⟨hw, encode_of_parse16 hi⟩, fun ⟨hw, he⟩ => ⟨parse16_of_encode hw he, hw⟩⟩

/-- Two halfwords decode to exactly the well-formed instruction that they encode. -/
theorem decode32_eq_some_iff : decode32 h1 h2 = some i ↔ i.wellFormed = true ∧ encode i = [h1, h2] := by
  rw [decode32, accepted_eq_some_iff]
  exact ⟨fun ⟨hi, hw⟩ => ⟨hw, encode_of_parse32 hi⟩, fun ⟨hw, he⟩ => ⟨parse32_of_encode hw he, hw⟩⟩

theorem is32_eq_false_of_decode16 (hd : decode16 h = some i) : is32 h = false := by
  obtain ⟨hi, -⟩ := accepted_eq_some_iff.1 hd
  rw [is32, decide_eq_false_iff_not]
  intro hwide
  have hlt := bits_lt h 10 6
  have hge : 58 ≤ bits h 10 6 := by rw [bits_11_5_eq_10_6] at hwide; omega
  interval_cases htop : bits h 10 6 <;>
    simp [parse16, bits_13_3_eq_10_6, bits_12_4_eq_10_6, bits_11_5_eq_10_6, htop] at hi

theorem is32_of_decode32 (hd : decode32 h1 h2 = some i) : is32 h1 = true := by
  obtain ⟨hi, -⟩ := accepted_eq_some_iff.1 hd
  have h9 := bits_11_5_eq_9_7 h1
  rw [is32, decide_eq_true_iff]
  rw [parse32] at hi
  obtain ⟨hp, -⟩ | ⟨-, hi⟩ := ite_eq_iff.1 hi
  · omega
  obtain ⟨hp, -⟩ | ⟨-, hi⟩ := ite_eq_iff.1 hi
  · omega
  obtain ⟨hp, -⟩ | ⟨-, hi⟩ := ite_eq_iff.1 hi
  · omega
  obtain ⟨hp, -⟩ | ⟨-, hi⟩ := ite_eq_iff.1 hi
  · omega
  obtain ⟨hp, -⟩ | ⟨-, ⟨⟩⟩ := ite_eq_iff.1 hi
  have h7 : bits h1 11 5 = bits h1 7 9 / 16 % 32 := bits_inner h1 (k := 4) (by decide)
  omega

/-- An encoding is one halfword or two. -/
theorem encode_eq_one_or_two (i : Instr) : (∃ h, encode i = [h]) ∨ ∃ h1 h2, encode i = [h1, h2] := by
  rw [← List.length_eq_one_iff, ← List.length_eq_two]
  cases i <;> simp [encode, encShift16, encImm8, encDp16, encSpecial16, encThree16, encImm5, encCompareBranch, encConst32,
    encShifted32, encShiftReg32, encBranch24, encMrs, encMsr, encLong32, encLiteral32, encIndexed32, encRegOffset32,
    encMultiple32]

/-! ## Bytes (20_memory R68) -/

/-- A halfword is made of its two bytes. -/
theorem exists_bytesOfHalf (h : Half) : ∃ b0 b1, bytesOfHalf h = [b0, b1] ∧ halfOfBytes b0 b1 = h := by
  refine ⟨_, _, rfl, BitVec.eq_of_toNat_eq ?_⟩
  have hlt := h.isLt
  simp only [halfOfBytes, BitVec.toNat_ofNat]
  omega

theorem bytesOfHalf_halfOfBytes (b0 b1 : Byte) : bytesOfHalf (halfOfBytes b0 b1) = [b0, b1] := by
  have h0 := b0.isLt
  have h1 := b1.isLt
  simp only [bytesOfHalf, halfOfBytes, List.cons.injEq, and_true, ← BitVec.toNat_inj, BitVec.toNat_ofNat]
  omega

/-- The halfword that the first two bytes are. -/
theorem append_eq_of_cons_cons_eq {b0 b1 : Byte} {rest tail : List Byte} (hbs : b0 :: b1 :: rest = bytesOfHalf h ++ tail) :
    b1 ++ b0 = h := by
  obtain ⟨c0, c1, hc, rfl⟩ := exists_bytesOfHalf h
  rw [hc] at hbs
  cases hbs
  exact (Machine.halfOfBytes_eq_append b0 b1).symm

/-- What a byte sequence decodes to: its first halfword, or its first two where the first begins a 32-bit instruction. -/
theorem decode_eq_ok_iff {bs rest : List Byte} :
    decode bs = .ok (i, rest) ↔
      (∃ h, is32 h = false ∧ decode16 h = some i ∧ bs = bytesOfHalf h ++ rest) ∨
        ∃ h1 h2, is32 h1 = true ∧ decode32 h1 h2 = some i ∧ bs = bytesOfHalf h1 ++ (bytesOfHalf h2 ++ rest) := by
  constructor
  · intro hd
    unfold decode at hd
    split at hd
    next b0 b1 tail =>
      dsimp only at hd
      split at hd
      next hw =>
        split at hd
        next b2 b3 tail' =>
          split at hd
          next j hj =>
            cases hd
            exact .inr ⟨_, _, hw, hj, by simp [bytesOfHalf_halfOfBytes]⟩
          next => cases hd
        next => cases hd
      next hw =>
        split at hd
        next j hj =>
          cases hd
          exact .inl ⟨_, by simpa using hw, hj, by simp [bytesOfHalf_halfOfBytes]⟩
        next => cases hd
    next => cases hd
  · rintro (⟨h, hw, hd, rfl⟩ | ⟨h1, h2, hw, hd, rfl⟩)
    · obtain ⟨b0, b1, hb, rfl⟩ := exists_bytesOfHalf h
      simp [decode, hb, hw, hd]
    · obtain ⟨b0, b1, hb, rfl⟩ := exists_bytesOfHalf h1
      obtain ⟨b2, b3, hb', rfl⟩ := exists_bytesOfHalf h2
      simp [decode, hb, hb', hw, hd]

end

/-! ## The round trips -/

/-- Settles O1: the encoding of a well-formed instruction is one halfword or two, and those decode to it. -/
theorem decodeOfEncode : Obligations.DecodeOfEncode := by
  intro i rest hw
  rw [decode_eq_ok_iff, encodeBytes]
  obtain ⟨h, he⟩ | ⟨h1, h2, he⟩ := encode_eq_one_or_two i
  · have hd := decode16_eq_some_iff.2 ⟨hw, he⟩
    exact .inl ⟨h, is32_eq_false_of_decode16 hd, hd, by simp [he]⟩
  · have hd := decode32_eq_some_iff.2 ⟨hw, he⟩
    exact .inr ⟨h1, h2, is32_of_decode32 hd, hd, by simp [he]⟩

/-- Settles O2: the halfwords that decode are the encoding of a well-formed instruction. -/
theorem encodeOfDecode : Obligations.EncodeOfDecode := by
  intro bs i rest hok
  obtain ⟨h, -, hd, rfl⟩ | ⟨h1, h2, -, hd, rfl⟩ := decode_eq_ok_iff.1 hok
  · obtain ⟨hw, he⟩ := decode16_eq_some_iff.1 hd
    exact ⟨hw, by simp [encodeBytes, he]⟩
  · obtain ⟨hw, he⟩ := decode32_eq_some_iff.1 hd
    exact ⟨hw, by simp [encodeBytes, he]⟩

end Sys2Proof

namespace Sys2Proof.Machine

/-- Settles O3: the width is that of the encoding, which has a second halfword exactly if the first asks for one. -/
theorem decodeWidth : Obligations.DecodeWidth := by
  intro b0 b1 rest i rest' hok
  obtain ⟨h, hw, hd, hbs⟩ | ⟨h1, h2, hw, hd, hbs⟩ := decode_eq_ok_iff.1 hok
  · obtain ⟨-, he⟩ := decode16_eq_some_iff.1 hd
    have hwidth : width i = 2 := by rw [width, he]; rfl
    rw [append_eq_of_cons_cons_eq hbs, if_neg (by rw [← is32_iff, hw]; decide), hwidth, hbs]
    exact ⟨rfl, rfl⟩
  · obtain ⟨-, he⟩ := decode32_eq_some_iff.1 hd
    have hwidth : width i = 4 := by rw [width, he]; rfl
    rw [append_eq_of_cons_cons_eq hbs, if_pos ((is32_iff _).1 hw), hwidth, hbs]
    exact ⟨rfl, rfl⟩

/-! ## Invalid patterns -/

/-- A first halfword that begins no 32-bit instruction decodes alone, whatever follows it. -/
theorem decode_of_narrow {b0 b1 : Byte} (rest : List Byte) {e : DecodeError} (hw : is32 (halfOfBytes b0 b1) = false)
    (hd : decode (b0 :: b1 :: rest) = .error e) : decode [b0, b1] = .error e := by
  cases hdec : decode16 (halfOfBytes b0 b1) with
  | none => simpa [decode, hw, hdec] using hd
  | some i => simp [decode, hw, hdec] at hd

/-- A step whose bytes are no instruction. -/
theorem step_of_invalid {s : State} {bs : List Byte} {e : DecodeError} (hrun : s.pc ≠ s.cfg.haltAddr)
    (hfetch : fetchBytes s = .next bs) (hd : decode bs = .error e) : step s = .refused (.invalidEncoding e) := by
  simp [step_of_running hrun, fetchInstr, hfetch, hd]

/-- Settles O7: the bytes that are refused are those the first halfword asks for. -/
theorem invalidRefused : Obligations.InvalidRefused := by
  refine fun s e hrun => ⟨fun htop hadm hnarrow hd => ?_, fun htop hadm hd => ?_⟩
  · have hw : is32 (halfOfBytes (s.mem.read s.pc.toNat) (s.mem.read (s.pc.toNat + 1))) = false := by
      rw [← Bool.not_eq_true, is32_iff, halfOfBytes_eq_append]
      exact hnarrow
    exact step_of_invalid hrun (fetchBytes_of_narrow (fetchAt_eq_next.2 ⟨htop, hadm, rfl⟩) hw) hd
  · have hfetch : fetchAt s.pc.toNat 4 s = .next (s.mem.readBytes s.pc.toNat 4) := fetchAt_eq_next.2 ⟨htop, hadm, rfl⟩
    cases hw : is32 (halfOfBytes (s.mem.read s.pc.toNat) (s.mem.read (s.pc.toNat + 1))) with
    | true => exact step_of_invalid hrun (fetchBytes_of_wide hfetch hw) hd
    | false =>
      rw [show 4 = 2 + 2 from rfl, Config.admits_add, Bool.and_eq_true] at hadm
      exact step_of_invalid hrun (fetchBytes_of_narrow (fetchAt_eq_next.2 ⟨by omega, hadm.1, rfl⟩) hw)
        (decode_of_narrow _ hw hd)

end Sys2Proof.Machine
end

section
/-! SUPPORT. The shift that the type and length fields of a 32-bit encoding name (30_encoding R95, R102). -/

namespace Sys2Proof.Machine

/-- The type and length fields of a shift: a length of 32 is written as 0, and RRX as ROR with length 0. -/
def shiftFields (p : ShiftOp × Nat) : ShiftType × BitVec 5 :=
  match p.1 with
  | .lsl => (.lsl, BitVec.ofNat 5 p.2)
  | .lsr => (.lsr, BitVec.ofNat 5 p.2)
  | .asr => (.asr, BitVec.ofNat 5 p.2)
  | .ror => (.ror, BitVec.ofNat 5 p.2)
  | .rrx => (.ror, 0#5)

theorem ofNat_toNat_five (imm5 : BitVec 5) : BitVec.ofNat 5 imm5.toNat = imm5 := by simp

/-- A length field that stands for 32 when it is 0 is the length, cut to its five bits. -/
theorem ofNat_lengthOr32 (imm5 : BitVec 5) : BitVec.ofNat 5 (if imm5 = 0#5 then 32 else imm5.toNat) = imm5 := by
  split
  next hzero => rw [hzero]; rfl
  next => exact ofNat_toNat_five imm5

/-- The fields name one shift each. -/
theorem shiftFields_decodeShift (ty : ShiftType) (imm5 : BitVec 5) : shiftFields (decodeShift ty imm5) = (ty, imm5) := by
  cases ty with
  | lsl => exact congrArg (ShiftType.lsl, ·) (ofNat_toNat_five imm5)
  | lsr => exact congrArg (ShiftType.lsr, ·) (ofNat_lengthOr32 imm5)
  | asr => exact congrArg (ShiftType.asr, ·) (ofNat_lengthOr32 imm5)
  | ror =>
    rw [decodeShift]
    split
    next hzero => rw [hzero]; rfl
    next => exact congrArg (ShiftType.ror, ·) (ofNat_toNat_five imm5)

theorem ofNat_five_eq_zero_iff {n : Nat} : BitVec.ofNat 5 n = 0#5 ↔ n % 32 = 0 := by
  rw [← BitVec.toNat_inj, BitVec.toNat_ofNat]
  rfl

theorem lengthOr32_ofNat {n : Nat} (hn : 1 ≤ n ∧ n ≤ 32) :
    (if BitVec.ofNat 5 n = 0#5 then 32 else (BitVec.ofNat 5 n).toNat) = n := by
  simp only [ofNat_five_eq_zero_iff, BitVec.toNat_ofNat]
  split <;> omega

theorem toNat_five_pos {imm5 : BitVec 5} (hne : imm5 ≠ 0#5) : 1 ≤ imm5.toNat :=
  Nat.pos_of_ne_zero fun hzero => hne (BitVec.eq_of_toNat_eq hzero)

theorem lengthOr32_bounds (imm5 : BitVec 5) :
    1 ≤ (if imm5 = 0#5 then 32 else imm5.toNat) ∧ (if imm5 = 0#5 then 32 else imm5.toNat) ≤ 32 := by
  have hlt := imm5.isLt
  split
  next => decide
  next hne => exact ⟨toNat_five_pos hne, by omega⟩

/-- The shifts that fields name (30_encoding R95). -/
theorem exists_decodeShift_iff {op : ShiftOp} {n : Nat} :
    (∃ ty imm5, decodeShift ty imm5 = (op, n)) ↔
      (op = .lsl ∧ n ≤ 31) ∨ ((op = .lsr ∨ op = .asr) ∧ 1 ≤ n ∧ n ≤ 32) ∨ (op = .ror ∧ 1 ≤ n ∧ n ≤ 31) ∨
        (op = .rrx ∧ n = 1) := by
  constructor
  · rintro ⟨ty, imm5, h⟩
    have hlt := imm5.isLt
    cases ty with
    | lsl => obtain ⟨rfl, rfl⟩ := Prod.mk.inj h; exact .inl ⟨rfl, by omega⟩
    | lsr => obtain ⟨rfl, rfl⟩ := Prod.mk.inj h; exact .inr (.inl ⟨.inl rfl, lengthOr32_bounds imm5⟩)
    | asr => obtain ⟨rfl, rfl⟩ := Prod.mk.inj h; exact .inr (.inl ⟨.inr rfl, lengthOr32_bounds imm5⟩)
    | ror =>
      rw [decodeShift] at h
      split at h
      next => obtain ⟨rfl, rfl⟩ := Prod.mk.inj h; exact .inr (.inr (.inr ⟨rfl, rfl⟩))
      next hne =>
        obtain ⟨rfl, rfl⟩ := Prod.mk.inj h
        exact .inr (.inr (.inl ⟨rfl, toNat_five_pos hne, by omega⟩))
  · intro h
    refine ⟨(shiftFields (op, n)).1, (shiftFields (op, n)).2, ?_⟩
    obtain ⟨rfl, hn⟩ | ⟨rfl | rfl, hn⟩ | ⟨rfl, hn⟩ | ⟨rfl, rfl⟩ := h
    · exact congrArg (ShiftOp.lsl, ·) (Nat.mod_eq_of_lt (by omega))
    · exact congrArg (ShiftOp.lsr, ·) (lengthOr32_ofNat hn)
    · exact congrArg (ShiftOp.asr, ·) (lengthOr32_ofNat hn)
    · exact (if_neg (mt ofNat_five_eq_zero_iff.1 (by omega))).trans
        (congrArg (ShiftOp.ror, ·) (Nat.mod_eq_of_lt (by omega)))
    · rfl

/-- Settles O34: the fields of a shift are those of `shiftFields`. -/
theorem shiftField : Obligations.ShiftField := by
  refine ⟨fun imm5 => ⟨rfl, rfl, rfl, rfl⟩, fun x c => rfl, fun op n => exists_decodeShift_iff,
    fun ty ty' imm5 imm5' h => ?_⟩
  have hfields := congrArg shiftFields h
  rw [shiftFields_decodeShift, shiftFields_decodeShift] at hfields
  exact Prod.mk.inj hfields

end Sys2Proof.Machine
end

section
/-! SUPPORT. The Operand2 constants and the 12-bit field that names each of them once (30_encoding R97, R98, R101;
41_operand2_data_processing R153). -/

namespace Sys2Proof.Machine

/-! ## Classes of constants, as numbers -/

theorem toNat_append_eq_add {m n : Nat} (x : BitVec m) (y : BitVec n) : (x ++ y).toNat = x.toNat * 2 ^ n + y.toNat := by
  rw [BitVec.toNat_append, ← Nat.shiftLeft_add_eq_or_of_lt y.isLt, Nat.shiftLeft_eq]

/-- What a byte is multiplied with to stand in the bytes of a word that bits[9:8] of a constant field name. -/
def byteCopies (m : Nat) : Nat :=
  if m = 0 then 1 else if m = 1 then 0x00010001 else if m = 2 then 0x01000100 else 0x01010101

theorem byteCopies_cases {m : Nat} (hm : 1 ≤ m ∧ m ≤ 3) :
    (m = 1 ∧ byteCopies m = 0x00010001) ∨ (m = 2 ∧ byteCopies m = 0x01000100) ∨ (m = 3 ∧ byteCopies m = 0x01010101) := by
  obtain rfl | rfl | rfl : m = 1 ∨ m = 2 ∨ m = 3 := by omega
  · exact .inl ⟨rfl, rfl⟩
  · exact .inr (.inl ⟨rfl, rfl⟩)
  · exact .inr (.inr ⟨rfl, rfl⟩)

theorem eq_low_iff {c : Word} {b : Byte} : c = 0#8 ++ b ++ 0#8 ++ b ↔ c.toNat = b.toNat * byteCopies 1 := by
  rw [← BitVec.toNat_inj, show byteCopies 1 = 0x00010001 from rfl]
  simp only [toNat_append_eq_add, BitVec.toNat_ofNat]
  omega

theorem eq_high_iff {c : Word} {b : Byte} : c = b ++ 0#8 ++ b ++ 0#8 ↔ c.toNat = b.toNat * byteCopies 2 := by
  rw [← BitVec.toNat_inj, show byteCopies 2 = 0x01000100 from rfl]
  simp only [toNat_append_eq_add, BitVec.toNat_ofNat]
  omega

theorem eq_all_iff {c : Word} {b : Byte} : c = b ++ b ++ b ++ b ↔ c.toNat = b.toNat * byteCopies 3 := by
  rw [← BitVec.toNat_inj, show byteCopies 3 = 0x01010101 from rfl]
  simp only [toNat_append_eq_add]
  omega

/-- Class SHIFTED of 30_encoding R97. -/
theorem isShiftedByte_iff {c : Word} : isShiftedByte c = true ↔ ∃ v k, v ≤ 255 ∧ k ≤ 24 ∧ c.toNat = v * 2 ^ k := by
  simp only [isShiftedByte, List.any_eq_true, List.mem_range, Bool.and_eq_true, decide_eq_true_iff]
  constructor
  · rintro ⟨k, hk, hv, hmod⟩
    exact ⟨c.toNat / 2 ^ k, k, hv, by omega, (Nat.div_mul_cancel (Nat.dvd_of_mod_eq_zero hmod)).symm⟩
  · rintro ⟨v, k, hv, hk, hc⟩
    rw [hc]
    exact ⟨k, by omega, by rwa [Nat.mul_div_cancel v (Nat.two_pow_pos k)], Nat.mul_mod_left v (2 ^ k)⟩

/-- The Operand2 constants as numbers (30_encoding R97). -/
theorem isOp2Const_iff {c : Word} :
    isOp2Const c = true ↔ isShiftedByte c = true ∨ ∃ b m, b < 256 ∧ 1 ≤ m ∧ m ≤ 3 ∧ c.toNat = b * byteCopies m := by
  simp only [isOp2Const, Bool.or_eq_true, decide_eq_true_iff, or_assoc]
  refine or_congr_right ⟨?_, ?_⟩
  · rintro (hc | hc | hc)
    · exact ⟨_, 1, Nat.mod_lt _ (by decide), by decide, by decide, hc⟩
    · exact ⟨_, 2, Nat.mod_lt _ (by decide), by decide, by decide, hc⟩
    · exact ⟨_, 3, Nat.mod_lt _ (by decide), by decide, by decide, hc⟩
  · rintro ⟨b, m, hb, hm, hm3, hc⟩
    obtain ⟨-, hval⟩ | ⟨-, hval⟩ | ⟨-, hval⟩ := byteCopies_cases ⟨hm, hm3⟩ <;> rw [hval] at hc <;> omega

/-- Settles O39: the classes of `IsOp2Const` as numbers and as bytes in a word. -/
theorem operand2Constants : Obligations.Operand2Constants := by
  intro c
  simp only [isOp2Const_iff, isShiftedByte_iff, eq_low_iff, eq_high_iff, eq_all_iff]
  refine or_congr_right ⟨?_, ?_⟩
  · rintro ⟨b, m, hb, hm, hm3, hc⟩
    refine ⟨BitVec.ofNat 8 b, ?_⟩
    rw [BitVec.toNat_ofNat, Nat.mod_eq_of_lt hb]
    interval_cases m
    · exact .inl hc
    · exact .inr (.inl hc)
    · exact .inr (.inr hc)
  · rintro ⟨b, hc | hc | hc⟩
    · exact ⟨b.toNat, 1, b.isLt, by decide, by decide, hc⟩
    · exact ⟨b.toNat, 2, b.isLt, by decide, by decide, hc⟩
    · exact ⟨b.toNat, 3, b.isLt, by decide, by decide, hc⟩

/-! ## The constant field -/

/-- A byte in several places of a word is no byte shifted: the word is the byte times a multiple of 65537, so that its lowest
and highest set bits are too far apart. -/
theorem isShiftedByte_byteCopies {c : Word} {b m : Nat} (hb : 0 < b) (hm : 1 ≤ m ∧ m ≤ 3) (hc : c.toNat = b * byteCopies m) :
    isShiftedByte c = false := by
  obtain ⟨d, hd, hcd⟩ : ∃ d, 0 < d ∧ c.toNat = d * 65537 := by
    obtain ⟨-, hval⟩ | ⟨-, hval⟩ | ⟨-, hval⟩ := byteCopies_cases hm <;> rw [hval] at hc
    · exact ⟨b, hb, hc⟩
    · exact ⟨b * 256, by omega, by rw [hc, Nat.mul_assoc]⟩
    · exact ⟨b * 257, by omega, by rw [hc, Nat.mul_assoc]⟩
  rw [← Bool.not_eq_true, isShiftedByte_iff, hcd]
  rintro ⟨v, k, hv, -, heq⟩
  have hcop : Nat.Coprime (2 ^ k) 65537 := Nat.Coprime.pow_left k (by decide)
  obtain ⟨e, rfl⟩ : 2 ^ k ∣ d := hcop.dvd_of_dvd_mul_right (heq ▸ Nat.dvd_mul_left _ v)
  have he : 0 < e := Nat.pos_of_mul_pos_left hd
  have hve : e * 65537 = v := by
    apply Nat.eq_of_mul_eq_mul_left (Nat.two_pow_pos k)
    rw [← Nat.mul_assoc, heq, Nat.mul_comm]
  omega

theorem byteCopies_large {b m : Nat} (hb : 0 < b) (hm : 1 ≤ m ∧ m ≤ 3) : 255 < b * byteCopies m := by
  obtain ⟨-, hval⟩ | ⟨-, hval⟩ | ⟨-, hval⟩ := byteCopies_cases hm <;> rw [hval] <;> omega

/-- A byte whose bit[7] is 1, shifted left. -/
theorem shifted_large {x k : Nat} (hk : 1 ≤ k) : 255 < (128 + x) * 2 ^ k :=
  calc 255 < 128 * 2 ^ 1 := by decide
    _ ≤ (128 + x) * 2 ^ k := Nat.mul_le_mul (by omega) (Nat.pow_le_pow_right (by decide) hk)

section
variable {imm12 : BitVec 12} (cin : Bool)

/-- With bits[11:10] = 00 the field is a byte in the places that bits[9:8] name. -/
theorem thumbExpandImmC_of_copies (h : imm12.toNat / 1024 = 0) :
    thumbExpandImmC imm12 cin =
      (BitVec.ofNat 32 (imm12.toNat % 256 * byteCopies (imm12.toNat / 256)), cin) := by
  simp only [thumbExpandImmC, if_pos h, byteCopies]
  split_ifs <;> simp

theorem toNat_of_copies (h : imm12.toNat / 1024 = 0) :
    (thumbExpandImmC imm12 cin).1.toNat = imm12.toNat % 256 * byteCopies (imm12.toNat / 256) := by
  have hb : imm12.toNat % 256 < 256 := Nat.mod_lt _ (by decide)
  rw [thumbExpandImmC_of_copies cin h, BitVec.toNat_ofNat, Nat.mod_eq_of_lt]
  unfold byteCopies
  split_ifs <;> omega

/-- Else it is a byte whose bit[7] is 1, shifted left by 1 to 24 bits. -/
theorem toNat_of_rotated (h : imm12.toNat / 1024 ≠ 0) :
    (thumbExpandImmC imm12 cin).1.toNat = (128 + imm12.toNat % 128) * 2 ^ (32 - imm12.toNat / 128) := by
  have hlt := imm12.isLt
  have hn : imm12.toNat / 128 % 32 = imm12.toNat / 128 := by omega
  have hv : (128 + imm12.toNat % 128) % 2 ^ 32 = 128 + imm12.toNat % 128 := by omega
  have hlow : (128 + imm12.toNat % 128) >>> (imm12.toNat / 128) = 0 := by
    rw [Nat.shiftRight_eq_div_pow, Nat.div_eq_of_lt]
    calc 128 + imm12.toNat % 128 < 2 ^ 8 := by omega
      _ ≤ 2 ^ (imm12.toNat / 128) := Nat.pow_le_pow_right (by decide) (by omega)
  have hhigh : (128 + imm12.toNat % 128) * 2 ^ (32 - imm12.toNat / 128) < 2 ^ 32 :=
    calc (128 + imm12.toNat % 128) * 2 ^ (32 - imm12.toNat / 128)
      _ < 2 ^ 8 * 2 ^ (32 - imm12.toNat / 128) := Nat.mul_lt_mul_of_pos_right (by omega) (Nat.two_pow_pos _)
      _ ≤ 2 ^ 8 * 2 ^ 24 := Nat.mul_le_mul_left _ (Nat.pow_le_pow_right (by decide) (by omega))
      _ = 2 ^ 32 := by decide
  simp only [thumbExpandImmC, if_neg h, BitVec.toNat_rotateRight, BitVec.toNat_ofNat, hn, hv, hlow, Nat.zero_or,
    Nat.shiftLeft_eq, Nat.mod_eq_of_lt hhigh]

theorem carry_of_rotated (h : imm12.toNat / 1024 ≠ 0) :
    (thumbExpandImmC imm12 cin).2 = (thumbExpandImmC imm12 cin).1.getLsbD 31 := by
  simp only [thumbExpandImmC, if_neg h]

theorem constOk_iff :
    constOk imm12 = true ↔ imm12.toNat / 1024 = 0 → imm12.toNat / 256 ≠ 0 → imm12.toNat % 256 ≠ 0 := by
  simp only [constOk, Bool.not_eq_true', Bool.and_eq_false_iff, decide_eq_false_iff_not]
  omega

/-- A field that is a constant and its expansion: the byte alone, the byte in several places, or the byte shifted. -/
theorem expansion_cases (hok : constOk imm12 = true) :
    (imm12.toNat < 256 ∧ (thumbExpandImmC imm12 cin).1.toNat = imm12.toNat ∧ (thumbExpandImmC imm12 cin).2 = cin) ∨
    (∃ b m, 0 < b ∧ b < 256 ∧ (1 ≤ m ∧ m ≤ 3) ∧ imm12.toNat = m * 256 + b ∧
      (thumbExpandImmC imm12 cin).1.toNat = b * byteCopies m ∧ (thumbExpandImmC imm12 cin).2 = cin) ∨
    ∃ x k, x < 128 ∧ (1 ≤ k ∧ k ≤ 24) ∧ imm12.toNat = (32 - k) * 128 + x ∧
      (thumbExpandImmC imm12 cin).1.toNat = (128 + x) * 2 ^ k ∧
      (thumbExpandImmC imm12 cin).2 = (thumbExpandImmC imm12 cin).1.getLsbD 31 := by
  have hlt := imm12.isLt
  rw [constOk_iff] at hok
  by_cases hcopies : imm12.toNat / 1024 = 0
  · have hval := toNat_of_copies cin hcopies
    have hcarry : (thumbExpandImmC imm12 cin).2 = cin := by rw [thumbExpandImmC_of_copies cin hcopies]
    by_cases halone : imm12.toNat / 256 = 0
    · rw [halone, byteCopies, if_pos rfl] at hval
      exact .inl ⟨by omega, by omega, hcarry⟩
    · have hb := hok hcopies halone
      exact .inr (.inl ⟨_, _, by omega, by omega, by omega, by omega, hval, hcarry⟩)
  · have hval := toNat_of_rotated cin hcopies
    exact .inr (.inr ⟨_, _, by omega, by omega, by omega, hval, carry_of_rotated cin hcopies⟩)

/-- A field that is a constant expands to an Operand2 constant, and its carry is that of the constant. -/
theorem op2Const_expansion (hok : constOk imm12 = true) :
    isOp2Const (thumbExpandImmC imm12 cin).1 = true ∧
      thumbExpandImmC imm12 cin = op2Const (thumbExpandImmC imm12 cin).1 cin := by
  have hpair {c : Bool} (hcarry : (thumbExpandImmC imm12 cin).2 = c)
      (hop : (op2Const (thumbExpandImmC imm12 cin).1 cin).2 = c) :
      thumbExpandImmC imm12 cin = op2Const (thumbExpandImmC imm12 cin).1 cin := Prod.ext rfl (hcarry.trans hop.symm)
  obtain ⟨hlt, hval, hcarry⟩ | ⟨b, m, hb, hlt, hm, -, hval, hcarry⟩ | ⟨x, k, hx, hk, -, hval, hcarry⟩ :=
    expansion_cases cin hok
  · have hshift := isShiftedByte_iff.2 ⟨imm12.toNat, 0, by omega, by decide, by simpa using hval⟩
    refine ⟨isOp2Const_iff.2 (.inl hshift), hpair hcarry ?_⟩
    simp [op2Const, hval, show ¬255 < imm12.toNat by omega]
  · refine ⟨isOp2Const_iff.2 (.inr ⟨b, m, hlt, hm.1, hm.2, hval⟩), hpair hcarry ?_⟩
    simp [op2Const, isShiftedByte_byteCopies hb hm hval]
  · have hshift := isShiftedByte_iff.2 ⟨128 + x, k, by omega, hk.2, hval⟩
    have hbig : 255 < (thumbExpandImmC imm12 cin).1.toNat := hval ▸ shifted_large hk.1
    exact ⟨isOp2Const_iff.2 (.inl hshift), hpair hcarry (by simp [op2Const, hbig, hshift])⟩

end

/-! ## One field for each constant -/

/-- A larger shift of a byte whose bit[7] is 1 is larger. -/
theorem shifted_lt {x x' k k' : Nat} (hx : x < 128) (hk : k < k') : (128 + x) * 2 ^ k < (128 + x') * 2 ^ k' :=
  calc (128 + x) * 2 ^ k < 256 * 2 ^ k := Nat.mul_lt_mul_of_pos_right (by omega) (Nat.two_pow_pos k)
    _ = 128 * 2 ^ (k + 1) := by rw [Nat.pow_succ]; omega
    _ ≤ (128 + x') * 2 ^ k' := Nat.mul_le_mul (by omega) (Nat.pow_le_pow_right (by decide) hk)

theorem shifted_inj {x x' k k' : Nat} (hx : x < 128) (hx' : x' < 128) (h : (128 + x) * 2 ^ k = (128 + x') * 2 ^ k') :
    x = x' ∧ k = k' := by
  obtain hlt | rfl | hlt := Nat.lt_trichotomy k k'
  · exact absurd h (shifted_lt hx hlt).ne
  · exact ⟨by have := Nat.eq_of_mul_eq_mul_right (Nat.two_pow_pos k) h; omega, rfl⟩
  · exact absurd h (shifted_lt hx' hlt).ne'

theorem byteCopies_inj {b b' m m' : Nat} (hb : 0 < b ∧ b < 256) (hb' : 0 < b' ∧ b' < 256) (hm : 1 ≤ m ∧ m ≤ 3)
    (hm' : 1 ≤ m' ∧ m' ≤ 3) (h : b * byteCopies m = b' * byteCopies m') : b = b' ∧ m = m' := by
  obtain ⟨rfl, h1⟩ | ⟨rfl, h1⟩ | ⟨rfl, h1⟩ := byteCopies_cases hm <;> rw [h1] at h <;>
    obtain ⟨hm', h2⟩ | ⟨hm', h2⟩ | ⟨hm', h2⟩ := byteCopies_cases hm' <;> rw [h2] at h <;> omega

/-- Two fields that are constants and expand to the same word are the same: the size of the word and whether it is a byte
shifted tell the kind of the field, and the word tells the field of a kind. -/
theorem expansion_inj {f g : BitVec 12} {cin : Bool} (hf : constOk f = true) (hg : constOk g = true)
    (h : (thumbExpandImmC f cin).1 = (thumbExpandImmC g cin).1) : f = g := by
  apply BitVec.eq_of_toNat_eq
  obtain ⟨hlt, hval, -⟩ | ⟨b, m, hb, hlt, hm, hfield, hval, -⟩ | ⟨x, k, hx, hk, hfield, hval, -⟩ :=
      expansion_cases cin hf <;>
    obtain ⟨hlt', hval', -⟩ | ⟨b', m', hb', hlt', hm', hfield', hval', -⟩ | ⟨x', k', hx', hk', hfield', hval', -⟩ :=
      expansion_cases cin hg <;>
    rw [h] at hval
  · exact hval.symm.trans hval'
  · have := byteCopies_large hb' hm'
    omega
  · have := shifted_large (x := x') hk'.1
    omega
  · have := byteCopies_large hb hm
    omega
  · obtain ⟨rfl, rfl⟩ := byteCopies_inj ⟨hb, hlt⟩ ⟨hb', hlt'⟩ hm hm' (hval.symm.trans hval')
    exact hfield.trans hfield'.symm
  · have hshift := isShiftedByte_iff.2 ⟨128 + x', k', by omega, hk'.2, hval'⟩
    rw [isShiftedByte_byteCopies hb hm hval] at hshift
    cases hshift
  · have := shifted_large (x := x) hk.1
    omega
  · have hshift := isShiftedByte_iff.2 ⟨128 + x, k, by omega, hk.2, hval⟩
    rw [isShiftedByte_byteCopies hb' hm' hval'] at hshift
    cases hshift
  · obtain ⟨rfl, rfl⟩ := shifted_inj hx hx' (hval.symm.trans hval')
    exact hfield.trans hfield'.symm

/-- A byte shifted that is no byte is one whose bit[7] is 1, shifted. -/
theorem exists_shifted {v k : Nat} (hv : v ≤ 255) (hbig : 255 < v * 2 ^ k) :
    ∃ x k', x < 128 ∧ 1 ≤ k' ∧ k' ≤ k ∧ v * 2 ^ k = (128 + x) * 2 ^ k' := by
  induction k generalizing v with
  | zero => simp at hbig; omega
  | succ k ih =>
    by_cases hnormal : 128 ≤ v
    · exact ⟨v - 128, k + 1, by omega, by omega, le_rfl, by rw [Nat.add_sub_cancel' hnormal]⟩
    · have hdouble : v * 2 ^ (k + 1) = 2 * v * 2 ^ k := by rw [Nat.pow_succ]; ring
      rw [hdouble] at hbig ⊢
      obtain ⟨x, k', hx, hk', hle, heq⟩ := ih (by omega) hbig
      exact ⟨x, k', hx, hk', by omega, heq⟩

/-- Each Operand2 constant has a field. -/
theorem exists_field {c : Word} (cin : Bool) (hc : isOp2Const c = true) :
    ∃ imm12, constOk imm12 = true ∧ (thumbExpandImmC imm12 cin).1 = c := by
  obtain ⟨n, hn, hok, hval⟩ : ∃ n, (BitVec.ofNat 12 n).toNat = n ∧ (n / 1024 = 0 → n / 256 ≠ 0 → n % 256 ≠ 0) ∧
      (thumbExpandImmC (BitVec.ofNat 12 n) cin).1.toNat = c.toNat := by
    have hsmall {n : Nat} (hn : n < 4096) : (BitVec.ofNat 12 n).toNat = n := Nat.mod_eq_of_lt hn
    by_cases hbig : 255 < c.toNat
    · obtain hshift | ⟨b, m, hb, hm, hm3, hc⟩ := isOp2Const_iff.1 hc
      · obtain ⟨v, k, hv, hk, hc⟩ := isShiftedByte_iff.1 hshift
        rw [hc] at hbig ⊢
        obtain ⟨x, k', hx, hk', hle, heq⟩ := exists_shifted hv hbig
        have hn : (BitVec.ofNat 12 ((32 - k') * 128 + x)).toNat = (32 - k') * 128 + x := hsmall (by omega)
        refine ⟨_, hn, by omega, ?_⟩
        rw [toNat_of_rotated cin (by omega), hn, heq, show ((32 - k') * 128 + x) % 128 = x by omega,
          show 32 - ((32 - k') * 128 + x) / 128 = k' by omega]
      · have hpos : b ≠ 0 := by rintro rfl; omega
        have hn : (BitVec.ofNat 12 (m * 256 + b)).toNat = m * 256 + b := hsmall (by omega)
        refine ⟨_, hn, by omega, ?_⟩
        rw [toNat_of_copies cin (by omega), hn, hc, show (m * 256 + b) % 256 = b by omega,
          show (m * 256 + b) / 256 = m by omega]
    · have hn := hsmall (show c.toNat < 4096 by omega)
      refine ⟨_, hn, by omega, ?_⟩
      rw [toNat_of_copies cin (by omega), hn, show c.toNat / 256 = 0 by omega, byteCopies, if_pos rfl]
      omega
  exact ⟨_, constOk_iff.2 (hn.symm ▸ hok), BitVec.eq_of_toNat_eq hval⟩

/-- The field with bits[11:10] = 00, by its parts. -/
theorem thumbExpandImmC_append {m : BitVec 4} (hm : m.toNat < 4) (b : BitVec 8) (cin : Bool) :
    thumbExpandImmC (m ++ b) cin = (BitVec.ofNat 32 (b.toNat * byteCopies m.toNat), cin) := by
  have hb := b.isLt
  have hfield : (m ++ b).toNat = m.toNat * 256 + b.toNat := toNat_append_eq_add m b
  rw [thumbExpandImmC_of_copies cin (by omega), hfield, show (m.toNat * 256 + b.toNat) % 256 = b.toNat by omega,
    show (m.toNat * 256 + b.toNat) / 256 = m.toNat by omega]

theorem toNat_byteCopies (b : BitVec 8) {m : Nat} :
    (BitVec.ofNat 32 (b.toNat * byteCopies m)).toNat = b.toNat * byteCopies m := by
  have hb := b.isLt
  rw [BitVec.toNat_ofNat, Nat.mod_eq_of_lt]
  unfold byteCopies
  split_ifs <;> omega

/-- Settles O40: the expansion by the value of the field, and one field for each constant. -/
theorem constantFieldExact : Obligations.ConstantFieldExact := by
  refine ⟨fun b cin => ⟨?_, ?_, ?_, ?_⟩, fun imm12 cin hne => ?_, fun imm12 cin hok => op2Const_expansion cin hok,
    fun c cin hc => ?_⟩
  · rw [thumbExpandImmC_append (by decide)]
    refine congrArg (·, cin) (BitVec.eq_of_toNat_eq ?_)
    rw [toNat_byteCopies, toNat_append_eq_add]
    simp [byteCopies]
  · rw [thumbExpandImmC_append (by decide)]
    exact congrArg (·, cin) (eq_low_iff.2 (toNat_byteCopies b))
  · rw [thumbExpandImmC_append (by decide)]
    exact congrArg (·, cin) (eq_high_iff.2 (toNat_byteCopies b))
  · rw [thumbExpandImmC_append (by decide)]
    exact congrArg (·, cin) (eq_all_iff.2 (toNat_byteCopies b))
  · have hlt := imm12.isLt
    have htop : imm12.toNat / 1024 ≠ 0 := fun hzero => hne (BitVec.eq_of_toNat_eq (by
      rw [BitVec.extractLsb'_toNat, Nat.shiftRight_eq_div_pow, hzero]
      rfl))
    have hbyte : BitVec.ofNat 32 (128 + imm12.toNat % 128) = 0#24 ++ 1#1 ++ imm12.extractLsb' 0 7 := by
      apply BitVec.eq_of_toNat_eq
      simp only [toNat_append_eq_add, BitVec.toNat_ofNat, BitVec.extractLsb'_toNat, Nat.shiftRight_zero]
      omega
    have hlen : imm12.toNat / 128 = (imm12.extractLsb' 7 5).toNat := by
      rw [BitVec.extractLsb'_toNat, Nat.shiftRight_eq_div_pow]
      omega
    simp only [thumbExpandImmC, if_neg htop, hbyte, hlen]
  · obtain ⟨imm12, hok, hval⟩ := exists_field cin hc
    exact ⟨imm12, hok, hval, fun other hok' hval' => expansion_inj hok' hok (hval'.trans hval.symm)⟩

end Sys2Proof.Machine
end

section
/-! SUPPORT. The Read and Write functions of the special registers (40_special_register_access R131 to R146): each
completes, a Read function with what `readSpecial` reads in its register, a Write function with what `writeSpecial`
leaves. -/

namespace Sys2Proof.Machine

/-! ## The functions as instructions -/

section
variable (rd rn : Reg) (r : SysReg) (s : State)

theorem ownCond_mrs : (mrs rd r).ownCond = .al := by cases r <;> rfl

theorem ownCond_msr : (msr rn r).ownCond = .al := by cases r <;> rfl

theorem wellFormed_mrs : (mrs rd r).wellFormed = rd.isGpr := by cases r <;> rfl

theorem width_mrs : width (mrs rd r) = 4 := by rw [width, encode_mrs]; rfl

theorem width_msr : width (msr rn r) = 4 := by rw [width, encode_msr]; rfl

theorem exec_mrs : exec (mrs rd r) s = readFunction (mrs rd r) rd r s := by cases r <;> rfl

theorem exec_msr : exec (msr rn r) s = writeFunction (msr rn r) rn r s := by cases r <;> rfl

end

/-! ## Completion -/

section
variable {i : Instr} {rd rn : Reg} {r : SysReg} {s u : State} {n : Nat}

/-- An instruction of `n` bytes that is ready and has room for its advance completes with its own effect. -/
theorem conditional_retire_of_ready (hready : Ready i s) (hown : i.ownCond = .al) (hn : width i = n)
    (hroom : u.pc.toNat + n < addressCount) : conditional i s (retire i u) = .next (u.advanced n) := by
  subst hn
  obtain ⟨hcond, hwf⟩ := hready
  rw [hown] at hcond
  exact (conditionalAs_passed hcond hwf rfl).trans (retire_eq_next.2 ⟨hroom, rfl⟩)

/-- The write of a general register, and the advance, change nothing else. -/
theorem setReg_advanced_writesResult (hrd : rd.isGpr = true) (v : Word) :
    WritesResult n rd v s.flags s ((s.setReg rd v).advanced n) := by
  obtain ⟨hsp, hpc⟩ : rd ≠ .sp ∧ rd ≠ .pc := by simpa [Reg.isGpr] using hrd
  have hreg : ((s.setReg rd v).advanced n).reg rd = v := by
    rw [State.advanced_reg _ _ hpc, State.reg_setReg_self _ _ _ hpc, held, if_neg hsp]
  have hframe : Frame [rd] s ((s.setReg rd v).advanced n) :=
    ((Frame.refl s [rd]).setReg List.mem_cons_self v).of_fields rfl rfl rfl rfl rfl rfl rfl rfl rfl rfl
  exact ⟨hreg, by simp, hframe, fun a => by simp, by simp [Advanced]⟩

/-- A Read function writes the value read to its register (R131, R132). -/
theorem exec_mrs_writesResult (rd : Reg) (r : SysReg) {v : Word} (hv : readSpecial r s = v)
    (hready : Ready (mrs rd r) s) (hroom : Room 4 s) :
    ∃ t, exec (mrs rd r) s = .next t ∧ WritesResult 4 rd v s.flags s t := by
  subst hv
  have hgpr : rd.isGpr = true := wellFormed_mrs rd r ▸ hready.2
  refine ⟨_, ?_, setReg_advanced_writesResult hgpr _⟩
  rw [exec_mrs]
  exact conditional_retire_of_ready hready (ownCond_mrs rd r) (width_mrs rd r) (by rwa [State.setReg_pc])

/-- A Write function writes its register to the special register (R131, R132). -/
theorem exec_msr_next (hready : Ready (msr rn r) s) (hroom : Room 4 s) :
    exec (msr rn r) s = .next ((writeSpecial r (s.reg rn) s).advanced 4) := by
  rw [exec_msr]
  exact conditional_retire_of_ready hready (ownCond_msr rn r) (width_msr rn r) (by rwa [writeSpecial_pc])

end

/-! ## What is read, and what a privileged write leaves (R146) -/

theorem State.privileged_iff {s : State} : s.privileged = true ↔ s.control.getLsbD 0 = false := by
  rw [State.privileged, Bool.not_eq_true']

/-- Settles O58: each Read function completes with the value `readSpecial` has for its register. -/
theorem readFunctionResults : Obligations.ReadFunctionResults := by
  intro rd s priv
  have hpriv (x : Word) : (if s.privileged = true then x else 0#32) = if priv then x else 0#32 :=
    if_congr State.privileged_iff rfl rfl
  simp only [List.forall_mem_cons]
  exact ⟨exec_mrs_writesResult rd .primask (hpriv _), exec_mrs_writesResult rd .faultmask (hpriv _),
    exec_mrs_writesResult rd .basepri (hpriv _), exec_mrs_writesResult rd .control rfl,
    exec_mrs_writesResult rd .msp (hpriv _), exec_mrs_writesResult rd .psp (hpriv _), List.forall_mem_nil _⟩

section
variable {s : State} (hp : s.privileged = true) (v : Word)
include hp

theorem writeSpecial_primask : writeSpecial .primask v s =
    { s with primask := (s.primask &&& 0xFFFFFFFE#32) ||| (v &&& 1#32) } := if_neg (by simp [hp])

theorem writeSpecial_faultmask : writeSpecial .faultmask v s =
    { s with faultmask := (s.faultmask &&& 0xFFFFFFFE#32) ||| (v &&& 1#32) } := if_neg (by simp [hp])

theorem writeSpecial_basepri : writeSpecial .basepri v s =
    { s with basepri := (s.basepri &&& 0xFFFFFF00#32) ||| (v &&& 0xFF#32 &&& prioMask s.cfg.prioBits) } := by
  rw [BitVec.and_assoc v, BitVec.and_comm 0xFF#32, ← BitVec.and_assoc]
  exact if_neg (by simp [hp])

theorem writeSpecial_control : writeSpecial .control v s =
    { s with control := (s.control &&& ~~~controlMask s.cfg.hasFP) ||| (v &&& controlMask s.cfg.hasFP) } :=
  if_neg (by simp [hp])

theorem writeSpecial_msp : writeSpecial .msp v s = { s with msp := v &&& 0xFFFFFFFC#32 } := if_neg (by simp [hp])

theorem writeSpecial_psp : writeSpecial .psp v s = { s with psp := v &&& 0xFFFFFFFC#32 } := if_neg (by simp [hp])

end

/-- A Write function completes with what its write leaves when privileged (`u`), or with nothing written. -/
theorem exec_msr_of_write (rn : Reg) (r : SysReg) {s u : State}
    (hu : s.privileged = true → writeSpecial r (s.reg rn) s = u) (hready : Ready (msr rn r) s) (hroom : Room 4 s) :
    exec (msr rn r) s = .next ((if s.control.getLsbD 0 = false then u else s).advanced 4) := by
  rw [exec_msr_next hready hroom]
  split
  next hc => rw [hu (State.privileged_iff.2 hc)]
  next hc => rw [writeSpecial_unprivileged r _ s (Bool.eq_false_iff.2 (mt State.privileged_iff.1 hc))]

/-- Settles O59: each Write function completes with the write of its register, which is ignored when not privileged. -/
theorem writeFunctionResults : Obligations.WriteFunctionResults := by
  intro rn s v ctl
  simp only [List.forall_mem_cons]
  exact ⟨exec_msr_of_write rn .primask (writeSpecial_primask · v),
    exec_msr_of_write rn .faultmask (writeSpecial_faultmask · v),
    exec_msr_of_write rn .basepri (writeSpecial_basepri · v),
    exec_msr_of_write rn .control (writeSpecial_control · v),
    exec_msr_of_write rn .msp (writeSpecial_msp · v), exec_msr_of_write rn .psp (writeSpecial_psp · v),
    List.forall_mem_nil _⟩

end Sys2Proof.Machine
end

section
/-! SUPPORT. Sums and differences of words (41_operand2_data_processing R155, R156): the exact number behind a result, and what
it says of the carry and the overflow. -/

namespace Sys2Proof.Machine

theorem ArithResult.eq_of_fields {x y : ArithResult} (hvalue : x.value = y.value) (hcarry : x.carry = y.carry)
    (hoverflow : x.overflow = y.overflow) : x = y := by
  cases x; cases y; simp_all

/-! ## Words as signed numbers -/

theorem bit31_eq_sign (a : Word) : a.getLsbD 31 = decide (a.toInt < 0) :=
  (BitVec.msb_eq_getLsbD_last a).symm.trans BitVec.msb_eq_toInt

theorem toInt_range (a : Word) : -2147483648 ≤ a.toInt ∧ a.toInt < 2147483648 := ⟨BitVec.le_toInt a, BitVec.toInt_lt⟩

theorem toInt_not_eq (b : Word) : (~~~b).toInt = -1 - b.toInt := by
  have hb := b.isLt
  rw [BitVec.toInt_eq_toNat_cond, BitVec.toInt_eq_toNat_cond, BitVec.toNat_not]
  split_ifs <;> omega

section
variable {r : Word} {x : Int} (hr : r = BitVec.ofInt 32 x) (hx : -4294967296 ≤ x ∧ x < 4294967296)
include hr hx

/-- A word that holds the number `x` modulo 2^32 reads as `x`, or as `x` a full turn up or down. -/
theorem wrapped_cases :
    ((-2147483648 ≤ x ∧ x < 2147483648) ∧ r.toInt = x) ∨ (x < -2147483648 ∧ r.toInt = x + 4294967296) ∨
      (2147483648 ≤ x ∧ r.toInt = x - 4294967296) := by
  rw [hr, BitVec.toInt_ofInt, Int.bmod_def]
  split <;> omega

/-- It reads as another number where no word reads as `x`. -/
theorem wrapped_ne_iff : r.toInt ≠ x ↔ x < -2147483648 ∨ 2147483648 ≤ x := by
  have hcases := wrapped_cases hr hx
  omega

/-- It reads as another number where bit[31] is not the sign of `x`. -/
theorem wrapped_ne_iff_bit31 : r.toInt ≠ x ↔ r.getLsbD 31 ≠ decide (x < 0) := by
  have hcases := wrapped_cases hr hx
  rw [bit31_eq_sign, Ne, Ne, decide_eq_decide]
  omega

end

/-! ## Sums -/

section
variable (a b : Word) (cin : Bool)

theorem addWithCarry_exact :
    (addWithCarry a b cin).value = BitVec.ofInt 32 (a.toInt + b.toInt + cin.toNat) := by
  simp [addWithCarry, BitVec.ofInt_add, BitVec.ofNat_add]

theorem exactSum_range :
    -4294967296 ≤ a.toInt + b.toInt + cin.toNat ∧ a.toInt + b.toInt + cin.toNat < 4294967296 := by
  have ha := toInt_range a
  have hb := toInt_range b
  have hc := cin.toNat_le
  omega

theorem addWithCarry_carry_iff : (addWithCarry a b cin).carry = true ↔ 2 ^ 32 ≤ a.toNat + b.toNat + cin.toNat :=
  decide_eq_true_iff

theorem addWithCarry_overflow_iff :
    (addWithCarry a b cin).overflow = true ↔ (addWithCarry a b cin).value.toInt ≠ a.toInt + b.toInt + cin.toNat :=
  decide_eq_true_iff

theorem addWithCarry_value : (addWithCarry a b false).value = a + b := by simp [addWithCarry, BitVec.ofNat_add]

theorem addWithCarry_overflow_iff_range :
    (addWithCarry a b false).overflow = true ↔ a.toInt + b.toInt < -2147483648 ∨ 2147483648 ≤ a.toInt + b.toInt := by
  rw [addWithCarry_overflow_iff, wrapped_ne_iff (addWithCarry_exact a b false) (exactSum_range a b false)]
  simp

end

/-- Settles O29, from the exact sum behind the result; two operands of one sign overflow where the result has the other. -/
theorem additionLaw : Obligations.AdditionLaw := by
  intro a b cin
  refine ⟨BitVec.toNat_ofNat _ _, addWithCarry_carry_iff a b cin, addWithCarry_overflow_iff a b cin,
    (addWithCarry_overflow_iff a b cin).trans
      (wrapped_ne_iff_bit31 (addWithCarry_exact a b cin) (exactSum_range a b cin)), ?_⟩
  have ha := toInt_range a
  have hb := toInt_range b
  have hsum := wrapped_cases (addWithCarry_exact a b false) (exactSum_range a b false)
  rw [addWithCarry_overflow_iff_range]
  simp only [bit31_eq_sign, decide_eq_decide, ne_eq, Bool.toNat_false, Nat.cast_zero, add_zero] at hsum ⊢
  omega

/-! ## Differences -/

section
variable (a b : Word)

theorem sub_exact : (sub a b).value = BitVec.ofInt 32 (a.toInt - b.toInt) := by
  simp [sub, Int.sub_eq_add_neg, BitVec.ofInt_add, BitVec.ofInt_neg]

theorem exactDifference_range : -4294967296 ≤ a.toInt - b.toInt ∧ a.toInt - b.toInt < 4294967296 := by
  have ha := toInt_range a
  have hb := toInt_range b
  omega

theorem sub_carry_iff : (sub a b).carry = true ↔ b.toNat ≤ a.toNat := decide_eq_true_iff

theorem sub_overflow_iff : (sub a b).overflow = true ↔ (sub a b).value.toInt ≠ a.toInt - b.toInt := decide_eq_true_iff

theorem sub_value : (sub a b).value = a - b := by
  simp [sub, Int.sub_eq_add_neg, BitVec.ofInt_add, BitVec.ofInt_neg, BitVec.sub_eq_add_neg]

theorem sub_overflow_iff_range :
    (sub a b).overflow = true ↔ a.toInt - b.toInt < -2147483648 ∨ 2147483648 ≤ a.toInt - b.toInt := by
  rw [sub_overflow_iff, wrapped_ne_iff (sub_exact a b) (exactDifference_range a b)]

/-- A difference is the sum with the complement and carry-in 1 (R156). -/
theorem sub_eq_addWithCarry_not : sub a b = addWithCarry a (~~~b) true := by
  have hexact : a.toInt + (~~~b).toInt + true.toNat = a.toInt - b.toInt := by
    rw [toInt_not_eq, Bool.toNat_true]
    omega
  have hvalue : (sub a b).value = (addWithCarry a (~~~b) true).value := by
    rw [sub_exact, addWithCarry_exact, hexact]
  have hcarry : (sub a b).carry = (addWithCarry a (~~~b) true).carry := by
    have hb := b.isLt
    rw [Bool.eq_iff_iff, sub_carry_iff, addWithCarry_carry_iff, BitVec.toNat_not, Bool.toNat_true]
    omega
  have hoverflow : (sub a b).overflow = (addWithCarry a (~~~b) true).overflow := by
    rw [Bool.eq_iff_iff, sub_overflow_iff, addWithCarry_overflow_iff, hexact, hvalue]
  exact ArithResult.eq_of_fields hvalue hcarry hoverflow

end

/-- Settles O30, from the exact difference behind the result; operands of two signs overflow where the result has not the sign
of the first. -/
theorem subtractionLaw : Obligations.SubtractionLaw := by
  intro a b
  refine ⟨rfl, sub_carry_iff a b, sub_overflow_iff a b, sub_eq_addWithCarry_not a b, ?_⟩
  have ha := toInt_range a
  have hb := toInt_range b
  have hdiff := wrapped_cases (sub_exact a b) (exactDifference_range a b)
  rw [sub_overflow_iff_range]
  simp only [bit31_eq_sign, decide_eq_decide, ne_eq]
  omega

/-! ## A comparison with a constant, and with its negation (R176) -/

section
variable (x k : Word)

theorem sub_value_eq_add_neg : (sub x k).value = (addWithCarry x (-k) false).value := by
  rw [sub_value, addWithCarry_value, BitVec.sub_eq_add_neg]

/-- Subtracting 0 borrows nothing, and adding 0 carries nothing: "not borrow" and carry differ there alone. -/
theorem sub_carry_eq_add_neg_iff : (sub x k).carry = (addWithCarry x (-k) false).carry ↔ k ≠ 0#32 := by
  have hx := x.isLt
  have hk := k.isLt
  have hzero : k = 0#32 ↔ k.toNat = 0 := by rw [← BitVec.toNat_inj, BitVec.toNat_ofNat]
  rw [Bool.eq_iff_iff, sub_carry_iff, addWithCarry_carry_iff, BitVec.toNat_neg, Bool.toNat_false, Ne, hzero]
  omega

/-- The one constant that is its own negation as a word is not as a number, and it alone tells the overflows apart. -/
theorem sub_overflow_eq_add_neg_iff :
    (sub x k).overflow = (addWithCarry x (-k) false).overflow ↔ k ≠ 0x80000000#32 := by
  rw [Bool.eq_iff_iff, sub_overflow_iff_range, addWithCarry_overflow_iff_range]
  by_cases hk : k = 0x80000000#32
  · have hx := toInt_range x
    have hint : (0x80000000#32).toInt = -2147483648 := by decide
    refine iff_of_false ?_ (not_not.2 hk)
    rw [hk, show -0x80000000#32 = 0x80000000#32 by decide, hint]
    omega
  · refine iff_of_true ?_ hk
    rw [BitVec.toInt_neg_of_ne_intMin hk]
    omega

end

/-- Settles O33: value, carry and overflow, each with its own exception. -/
theorem compareSubstitution : Obligations.CompareSubstitution := by
  have hparts (x k : Word) := And.intro (sub_value_eq_add_neg x k)
    (And.intro (sub_carry_eq_add_neg_iff x k) (sub_overflow_eq_add_neg_iff x k))
  refine ⟨fun x => ?_, by decide, by decide, by decide, by decide, hparts⟩
  obtain ⟨hvalue, hcarry, hoverflow⟩ := hparts x 0xFFFFFFFE#32
  exact ArithResult.eq_of_fields hvalue (hcarry.2 (by decide)) (hoverflow.2 (by decide))

end Sys2Proof.Machine
end

section
/-! SUPPORT. What the data-processing instructions leave (41_operand2_data_processing R153 to R175): each completes with its
result, its flags and nothing else; one lemma per family of instructions. -/

namespace Sys2Proof.Machine

/-! ## Flags -/

theorem zero_eq_toNat (r : Word) : zero r = decide (r.toNat = 0) := by
  rw [zero, decide_eq_decide, ← BitVec.toNat_inj, BitVec.toNat_ofNat, Nat.zero_mod]

theorem logical_eq_resultFlags (s : State) (r : Word) (carry : Bool) :
    s.flags.logical r carry = resultFlags s r carry := by
  rw [Flags.logical, zero_eq_toNat]
  rfl

theorem arith_addWithCarry (a b : Word) : Flags.arith (addWithCarry a b false) = sumFlags a b := by
  have hcarry : (addWithCarry a b false).carry = decide (4294967296 ≤ a.toNat + b.toNat) := rfl
  have hoverflow : (addWithCarry a b false).overflow =
      decide (a.toInt + b.toInt < -2147483648 ∨ 2147483648 ≤ a.toInt + b.toInt) := by
    rw [Bool.eq_iff_iff, addWithCarry_overflow_iff_range, decide_eq_true_iff]
  rw [Flags.arith, addWithCarry_value, hcarry, hoverflow, zero_eq_toNat]
  rfl

theorem arith_sub (a b : Word) : Flags.arith (sub a b) = differenceFlags a b := by
  have hzero : zero (a - b) = decide (a = b) := by rw [zero, decide_eq_decide, BitVec.sub_eq_iff_eq_add, BitVec.zero_add]
  have hcarry : (sub a b).carry = decide (b.toNat ≤ a.toNat) := rfl
  have hoverflow : (sub a b).overflow =
      decide (a.toInt - b.toInt < -2147483648 ∨ 2147483648 ≤ a.toInt - b.toInt) := by
    rw [Bool.eq_iff_iff, sub_overflow_iff_range, decide_eq_true_iff]
  rw [Flags.arith, sub_value, hzero, hcarry, hoverflow]
  rfl

/-! ## Carries of Operand2 -/

/-- The carry of a constant field is that of the constant it names (R153). -/
theorem op2OfField_carry (imm12 : BitVec 12) (s : State) :
    (op2OfField imm12 s.flags.c).2 = constantCarry s (thumbExpandImmC imm12 s.flags.c).1 :=
  if_congr (by rw [Bool.and_eq_true, decide_eq_true_iff]) rfl rfl

/-- A constant of 8 bits leaves the carry. -/
theorem op2Const_byte_carry (imm8 : BitVec 8) (cin : Bool) : (op2Const (imm8.setWidth 32) cin).2 = cin := by
  have himm := imm8.isLt
  have hsmall : decide (255 < (imm8.setWidth 32 : Word).toNat) = false := by
    rw [decide_eq_false_iff_not, BitVec.toNat_setWidth]
    omega
  rw [op2Const, hsmall]
  rfl

/-! ## Restrictions (R151) -/

theorem LowReg.isGpr_reg (r : LowReg) : r.reg.isGpr = true := by cases r <;> rfl

/-- The first of the three restrictions of an instruction with two registers and an Operand2. -/
theorem and_and_elim_left {a b c : Bool} (h : (a && b && c) = true) : a = true := Bool.and_elim_left (Bool.and_elim_left h)

theorem conditionPassed_al {s : State} (h : s.itstate = []) : conditionPassed .al s = true := by
  rw [conditionPassed, currentCond, h]
  rfl

/-! ## The families of instructions -/

section
variable {i : Instr} {n : Nat} {sf : Bool} {rd : Reg} {s : State}

theorem Room.of_pc_eq {u : State} (hroom : Room n s) (hpc : u.pc = s.pc) : Room n u := by rwa [Room, hpc]

/-- The write of a general register and of the flags under an S bit, and the advance, change nothing else. -/
theorem setReg_withFlags_writesResult (hrd : rd.isGpr = true) (r : Word) (sf : Bool) (f : Flags) :
    WritesResult n rd r (if sf then f else s.flags) s (((s.setReg rd r).withFlags sf f).advanced n) := by
  obtain ⟨hreg, hflags, hframe, hmem, hadv⟩ := setReg_advanced_writesResult (n := n) (s := s) hrd r
  cases sf
  case false => exact ⟨hreg, hflags, hframe, hmem, hadv⟩
  case true =>
    obtain ⟨-, hpc⟩ : rd ≠ .sp ∧ rd ≠ .pc := by simpa [Reg.isGpr] using hrd
    refine ⟨?_, rfl, hframe.of_fields rfl rfl rfl rfl rfl rfl rfl rfl rfl rfl, hmem, hadv⟩
    rwa [State.advanced_reg _ _ hpc, State.withFlags_reg, ← State.advanced_reg _ n hpc]

/-- A conditional instruction that writes a general register, and with S the flags, completes and changes nothing else. -/
theorem conditional_writesResult (r : Word) (f : Flags) (hown : i.ownCond = .al) (hn : width i = n)
    (hrd : i.wellFormed = true → rd.isGpr = true) (hready : Ready i s) (hroom : Room n s) :
    ∃ t, conditional i s (retire i ((s.setReg rd r).withFlags sf f)) = .next t ∧
      WritesResult n rd r (if sf then f else s.flags) s t := by
  refine ⟨_, conditional_retire_of_ready hready hown hn (hroom.of_pc_eq (by simp)), ?_⟩
  exact setReg_withFlags_writesResult (hrd hready.2) r sf f

/-- A conditional instruction that writes the flags completes and changes nothing else. -/
theorem conditional_writesFlags (f : Flags) (hown : i.ownCond = .al) (hn : width i = n) (hready : Ready i s)
    (hroom : Room n s) : ∃ t, conditional i s (retire i (s.withFlags true f)) = .next t ∧ WritesFlags n f s t :=
  ⟨_, conditional_retire_of_ready hready hown hn (hroom.of_pc_eq rfl),
    rfl, (Frame.refl s []).of_fields rfl rfl rfl rfl rfl rfl rfl rfl rfl rfl, fun _ => rfl, rfl, rfl⟩

/-- A logical instruction or move completes with its result, and with S the flags of it (R157 to R167). -/
theorem logicalTo_writesResult {r : Word} {carry : Bool} (hown : i.ownCond = .al) (hn : width i = n)
    (hrd : i.wellFormed = true → rd.isGpr = true) (hready : Ready i s) (hroom : Room n s) :
    ∃ t, logicalTo i sf rd r carry s = .next t ∧
      WritesResult n rd r (if sf then resultFlags s r carry else s.flags) s t := by
  rw [← logical_eq_resultFlags]
  exact conditional_writesResult r _ hown hn hrd hready hroom

/-- A 16-bit logical instruction or move whose Operand2 leaves the carry sets the flags outside an IT block (30_encoding
R118). -/
theorem logicalTo16_writesResult {rd : LowReg} {r : Word} {carry : Bool} (hcarry : carry = s.flags.c)
    (hown : i.ownCond = .al) (hn : width i = 2) (hready : Ready i s) (hroom : Room 2 s) :
    ∃ t, logicalTo i (setsFlags16 s) rd.reg r carry s = .next t ∧
      WritesResult 2 rd.reg r (if s.itstate = [] then resultFlags s r s.flags.c else s.flags) s t := by
  subst hcarry
  rw [← if_congr (List.isEmpty_iff (l := s.itstate)) rfl rfl]
  exact logicalTo_writesResult hown hn (fun _ => LowReg.isGpr_reg rd) hready hroom

/-- An addition or subtraction completes with its value `r`, and with S its flags `f` (R172, R173). -/
theorem arithTo_writesResult {a : ArithResult} {r : Word} {f : Flags} (hr : a.value = r) (hf : Flags.arith a = f)
    (hown : i.ownCond = .al) (hn : width i = n) (hrd : i.wellFormed = true → rd.isGpr = true) (hready : Ready i s)
    (hroom : Room n s) :
    ∃ t, arithTo i sf rd a s = .next t ∧ WritesResult n rd r (if sf then f else s.flags) s t := by
  subst hr hf
  exact conditional_writesResult a.value _ hown hn hrd hready hroom

/-- TST and TEQ complete with the flags of the result (R168, R169). -/
theorem logicalTest_writesFlags {r : Word} {carry : Bool} (hown : i.ownCond = .al) (hn : width i = n) (hready : Ready i s)
    (hroom : Room n s) :
    ∃ t, logicalTest i r carry s = .next t ∧ WritesFlags n (resultFlags s r carry) s t := by
  rw [← logical_eq_resultFlags]
  exact conditional_writesFlags _ hown hn hready hroom

/-- CMP and CMN complete with the flags `f` of the difference or sum (R170, R171). -/
theorem arithTest_writesFlags {a : ArithResult} {f : Flags} (hf : Flags.arith a = f) (hown : i.ownCond = .al)
    (hn : width i = n) (hready : Ready i s) (hroom : Room n s) :
    ∃ t, arithTest i a s = .next t ∧ WritesFlags n f s t := by
  subst hf
  exact conditional_writesFlags _ hown hn hready hroom

end

/-! ## Logical instructions and moves -/

/-- Settles O21: each instruction is `logicalTo` of its result, with the carry of the constant. -/
theorem logicalConstantResults : Obligations.LogicalConstantResults := by
  intro sf rd rn imm12 s v
  rw [← op2OfField_carry imm12 s]
  simp only [List.forall_mem_cons]
  exact ⟨logicalTo_writesResult rfl rfl and_and_elim_left, logicalTo_writesResult rfl rfl and_and_elim_left,
    logicalTo_writesResult rfl rfl and_and_elim_left, logicalTo_writesResult rfl rfl and_and_elim_left,
    logicalTo_writesResult rfl rfl and_and_elim_left, logicalTo_writesResult rfl rfl Bool.and_elim_left,
    logicalTo_writesResult rfl rfl Bool.and_elim_left, List.forall_mem_nil _⟩

/-- Settles O22: each instruction is `logicalTo` of its result, with the carry of the shifter, or the carry flag for MOV. -/
theorem logicalShiftedResults : Obligations.LogicalShiftedResults := by
  intro sf rd rn rm ty imm5 s v
  simp only [List.forall_mem_cons]
  exact ⟨logicalTo_writesResult rfl rfl and_and_elim_left, logicalTo_writesResult rfl rfl and_and_elim_left,
    logicalTo_writesResult rfl rfl and_and_elim_left, logicalTo_writesResult rfl rfl and_and_elim_left,
    logicalTo_writesResult rfl rfl and_and_elim_left, logicalTo_writesResult rfl rfl Bool.and_elim_left,
    logicalTo_writesResult rfl rfl Bool.and_elim_left, List.forall_mem_nil _⟩

/-- `MOVS Rd, Rm` outside an IT block (30_encoding R118). -/
theorem exec_movsReg16_writesResult (rd rm : LowReg) {s : State} (hout : s.itstate = []) (hroom : Room 2 s) :
    ∃ t, exec (.movsReg16 rd rm) s = .next t ∧
      WritesResult 2 rd.reg (s.reg rm.reg) (resultFlags s (s.reg rm.reg) s.flags.c) s t := by
  rw [← logical_eq_resultFlags]
  refine ⟨_, ?_, setReg_withFlags_writesResult (LowReg.isGpr_reg rd) (s.reg rm.reg) true _⟩
  have hplace : Placement.outsideBlock.holds s = true := List.isEmpty_iff.2 hout
  exact (conditionalAs_passed (conditionPassed_al hout) rfl hplace).trans
    (retire_eq_next.2 ⟨hroom.of_pc_eq (by simp), rfl⟩)

/-- Settles O23: the instructions that are `logicalTo` in both places, and the two moves of a register. -/
theorem logical16Results : Obligations.Logical16Results := by
  intro a b rd rm imm8 s hroom
  refine ⟨?_, fun hout => exec_movsReg16_writesResult a b hout hroom, fun hready =>
    logicalTo_writesResult rfl rfl Bool.and_elim_left hready hroom⟩
  simp only [List.forall_mem_cons]
  exact ⟨(logicalTo16_writesResult rfl rfl rfl · hroom), (logicalTo16_writesResult rfl rfl rfl · hroom),
    (logicalTo16_writesResult rfl rfl rfl · hroom), (logicalTo16_writesResult rfl rfl rfl · hroom),
    (logicalTo16_writesResult rfl rfl rfl · hroom),
    (logicalTo16_writesResult (op2Const_byte_carry imm8 s.flags.c) rfl rfl · hroom), List.forall_mem_nil _⟩

/-- Settles O24: each instruction is `logicalTest` of its result, with the carry of Operand2. -/
theorem testResults : Obligations.TestResults := by
  intro a b rn rm imm12 ty imm5 s v w
  rw [← op2OfField_carry imm12 s]
  simp only [List.forall_mem_cons]
  exact ⟨logicalTest_writesFlags rfl rfl, logicalTest_writesFlags rfl rfl, logicalTest_writesFlags rfl rfl,
    logicalTest_writesFlags rfl rfl, logicalTest_writesFlags rfl rfl, List.forall_mem_nil _⟩

/-! ## Additions, subtractions and comparisons -/

section
variable {i : Instr} {n : Nat} {sf : Bool} {rd : Reg} {a b : Word} {s : State}

theorem add_writesResult (hown : i.ownCond = .al) (hn : width i = n) (hrd : i.wellFormed = true → rd.isGpr = true) :
    Ready i s → Room n s → ∃ t, arithTo i sf rd (addWithCarry a b false) s = .next t ∧
      WritesResult n rd (a + b) (if sf then sumFlags a b else s.flags) s t :=
  arithTo_writesResult (addWithCarry_value a b) (arith_addWithCarry a b) hown hn hrd

theorem sub_writesResult (hown : i.ownCond = .al) (hn : width i = n) (hrd : i.wellFormed = true → rd.isGpr = true) :
    Ready i s → Room n s → ∃ t, arithTo i sf rd (sub a b) s = .next t ∧
      WritesResult n rd (a - b) (if sf then differenceFlags a b else s.flags) s t :=
  arithTo_writesResult (sub_value a b) (arith_sub a b) hown hn hrd

end

/-- Settles O25: each form is `arithTo` of the sum of its operands. -/
theorem addResults : Obligations.AddResults := by
  intro sf a b c rd rn rm imm3 imm8 imm12 ty imm5 s out
  simp only [List.forall_mem_cons]
  exact ⟨add_writesResult rfl rfl and_and_elim_left, add_writesResult rfl rfl and_and_elim_left,
    add_writesResult rfl rfl fun _ => LowReg.isGpr_reg a, add_writesResult rfl rfl fun _ => LowReg.isGpr_reg a,
    add_writesResult rfl rfl fun _ => LowReg.isGpr_reg a, add_writesResult rfl rfl Bool.and_elim_left,
    List.forall_mem_nil _⟩

/-- Settles O26: each form is `arithTo` of the difference of its operands, Operand2 first. -/
theorem reverseSubtractResults : Obligations.ReverseSubtractResults := by
  intro sf a b rd rn rm imm12 ty imm5 s
  simp only [List.forall_mem_cons]
  exact ⟨sub_writesResult rfl rfl and_and_elim_left, sub_writesResult rfl rfl and_and_elim_left,
    sub_writesResult rfl rfl fun _ => LowReg.isGpr_reg a, List.forall_mem_nil _⟩

/-- Settles O27: each CMP is `arithTest` of the difference of its operands, each CMN of the sum. -/
theorem compareResults : Obligations.CompareResults := by
  intro a b rn rm imm8 imm12 ty imm5 s v w
  simp only [List.forall_mem_cons]
  exact ⟨arithTest_writesFlags (arith_sub _ _) rfl rfl, arithTest_writesFlags (arith_sub _ _) rfl rfl,
    arithTest_writesFlags (arith_sub _ _) rfl rfl, arithTest_writesFlags (arith_sub _ _) rfl rfl,
    arithTest_writesFlags (arith_sub _ _) rfl rfl, arithTest_writesFlags (arith_addWithCarry _ _) rfl rfl,
    arithTest_writesFlags (arith_addWithCarry _ _) rfl rfl, arithTest_writesFlags (arith_addWithCarry _ _) rfl rfl,
    List.forall_mem_nil _⟩

end Sys2Proof.Machine
end

section
/-! SUPPORT. What an instruction is refused for before its own effect: its form, its place in an IT block, and, where its
condition fails, the top of the address space (00_scope R10; 60_exceptions R275); and LDR PC from an unaligned address. -/

namespace Sys2Proof

open Machine

/-- Where in an IT block the instruction may stand (44_branch_and_conditional R244; 30_encoding R118; 43_load_store R226). -/
def Instr.placement (i : Instr) : Placement :=
  match i with
  | .it .. | .cbz .. | .cbnz .. | .movsReg16 .. | .bCond16 .. | .bCond32 .. => .outsideBlock
  | _ => if i.writesPc then .lastOfBlock else .anywhere

/-- A load of the PC stands last in its block (43_load_store R226). -/
theorem placement_of_loadsPc {i : Instr} (h : i.loadsPc = true) : i.placement = .lastOfBlock := by
  cases i
  case it | cbz | cbnz | movsReg16 | bCond16 | bCond32 => cases h
  case bx | blx | b16 | b32 | bl => cases h
  all_goals exact if_pos h

theorem takesCondition_of_loadsPc {i : Instr} (h : i.loadsPc = true) : i.takesCondition = true := by
  cases i
  case it | cbz | cbnz => cases h
  all_goals rfl

end Sys2Proof

namespace Sys2Proof.Machine

/-! ## The frame of every instruction -/

/-- `i` runs from `s` in the frame of a conditional instruction. -/
def RunsConditionally (i : Instr) (s : State) : Prop :=
  ∃ effect, exec i s = conditionalAs i.ownCond i.placement i s effect

section
variable {i : Instr} {s : State}

theorem loadWord_runsConditionally {rt : Reg} {form : AddrForm} (hexec : exec i s = loadWord i rt form s)
    (hown : i.ownCond = .al) (hplace : i.placement = if rt = .pc then .lastOfBlock else .anywhere) :
    RunsConditionally i s := by
  rw [RunsConditionally, hexec, hown, hplace]
  exact ⟨_, rfl⟩

end

/-- An instruction that takes a condition runs in the frame of a conditional instruction, by family of instructions. -/
theorem exec_runsConditionally {i : Instr} (h : i.takesCondition = true) (s : State) : RunsConditionally i s := by
  cases i
  case it | cbz | cbnz => cases h
  case ldrImm12 rt _ _ | ldrNeg8 rt _ _ | ldrPre rt _ _ _ | ldrPost rt _ _ _ | ldrt rt _ _ | ldrReg32 rt _ _ _ |
      ldrLit32 _ rt _ =>
    exact loadWord_runsConditionally rfl rfl (if_congr decide_eq_true_iff rfl rfl)
  case ldrLit16 rt _ | ldrReg16 rt _ _ | ldrImm16 rt _ _ | ldrSp16 rt _ =>
    exact loadWord_runsConditionally rfl rfl (if_neg rt.reg_ne_pc).symm
  case popWOne rt =>
    by_cases hpc : rt = .pc
    · subst hpc
      exact ⟨_, rfl⟩
    · have hplace : (Instr.popWOne rt).placement = .anywhere := if_neg (by simpa [Instr.writesPc, Instr.loadsPc] using hpc)
      rw [RunsConditionally, hplace]
      exact ⟨_, if_neg hpc⟩
  -- the place of the others does not depend on their operands, or is read off their bit for the PC as their meaning does
  all_goals exact ⟨_, rfl⟩

/-- IT, CBZ and CBNZ take no condition. -/
theorem exec_runsUnconditionally {i : Instr} (h : i.takesCondition = false) (s : State) :
    ∃ effect, exec i s = unconditional i s effect := by
  cases i
  case it | cbz | cbnz => exact ⟨_, rfl⟩
  all_goals cases h

/-! ## Refusals before the own effect -/

section
variable {own : Cond} {p : Placement} {i : Instr} {s : State} {effect : Result}

theorem conditionalAs_of_form (hc : conditionPassed own s = true) (hw : i.wellFormed = false) :
    conditionalAs own p i s effect = .refused .form := by
  simp [conditionalAs, hc, hw]

theorem conditionalAs_of_place (hc : conditionPassed own s = true) (hw : i.wellFormed = true) (hp : p.holds s = false) :
    conditionalAs own p i s effect = .refused .itPlacement := by
  simp [conditionalAs, hc, hw, hp]

theorem unconditional_of_form (hw : i.wellFormed = false) : unconditional i s effect = .refused .form := by
  simp [unconditional, hw]

theorem unconditional_of_place (hw : i.wellFormed = true) (hp : Placement.outsideBlock.holds s = false) :
    unconditional i s effect = .refused .itPlacement := by
  simp [unconditional, hw, hp]

theorem outsideBlock_holds_eq_false (h : s.itstate ≠ []) : Placement.outsideBlock.holds s = false :=
  Bool.eq_false_iff.2 (mt List.isEmpty_iff.1 h)

theorem lastOfBlock_holds_eq_false (h : 2 ≤ s.itstate.length) : Placement.lastOfBlock.holds s = false :=
  decide_eq_false (Nat.not_le.2 h)

/-- A term that is no instruction, once its condition holds. -/
theorem exec_of_form (hc : i.takesCondition = true → conditionPassed i.ownCond s = true) (hw : i.wellFormed = false) :
    exec i s = .refused .form := by
  cases ht : i.takesCondition
  case false =>
    obtain ⟨effect, hexec⟩ := exec_runsUnconditionally ht s
    rw [hexec, unconditional_of_form hw]
  case true =>
    obtain ⟨effect, hexec⟩ := exec_runsConditionally ht s
    rw [hexec, conditionalAs_of_form (hc ht) hw]

/-- An instruction that takes no condition inside a block. -/
theorem exec_of_inside (ht : i.takesCondition = false) (hw : i.wellFormed = true) (hin : s.itstate ≠ []) :
    exec i s = .refused .itPlacement := by
  obtain ⟨effect, hexec⟩ := exec_runsUnconditionally ht s
  rw [hexec, unconditional_of_place hw (outsideBlock_holds_eq_false hin)]

/-- An instruction that takes a condition where it may not stand. -/
theorem exec_of_place (ht : i.takesCondition = true) (hready : Ready i s) (hp : i.placement.holds s = false) :
    exec i s = .refused .itPlacement := by
  obtain ⟨effect, hexec⟩ := exec_runsConditionally ht s
  rw [hexec, conditionalAs_of_place hready.1 hready.2 hp]

/-- A failed condition at the top of the address space (92_eei_decisions D4). -/
theorem exec_of_failed_top (ht : i.takesCondition = true) (hc : conditionPassed i.ownCond s = false)
    (hroom : ¬Room (width i) s) : exec i s = .refused .addressTop := by
  obtain ⟨effect, hexec⟩ := exec_runsConditionally ht s
  rw [hexec, conditionalAs_failed hc]
  exact if_neg hroom

end

/-! ## LDR PC from an unaligned address (43_load_store R226) -/

/-- A single load of the PC reads a word. -/
theorem accesses_of_loadsPc {i : Instr} {s : State} {acc : Access} {a : Word} {n : Nat} (h : i.loadsPc = true)
    (hacc : i.accesses s = some (acc, a, n)) : n = 4 := by
  cases i
  case ldrImm12 | ldrNeg8 | ldrPre | ldrPost | ldrt | ldrReg32 | ldrLit32 => cases hacc; rfl
  case pop16 | ldm32 | ldmdb | popW | popWOne => cases hacc
  all_goals cases h

theorem MakesAccess.eq_unalignedPcLoad {i : Instr} {s : State} {acc : Access} {a : Word} {n : Nat} {r : Result}
    (h : MakesAccess i s acc a n r) (hal : AlignOk n a s) (hl : i.loadsPc = true) (ha : a.toNat % 4 ≠ 0) :
    r = .refused .unalignedPcLoad := by
  obtain ⟨cls, hcls, rest, rfl⟩ := h
  have hpc : (i.loadsPc && !aligned a .word) = true := by simpa [hl, AccessClass.word_alignsTo a] using ha
  rw [checkAlign_of_alignOk hcls hal, andThen_next, if_pos hpc]

/-- Settles O52: all but the last refusal come from the frame the instruction runs in, and the last from its access. -/
theorem refusals : Obligations.Refusals := by
  refine ⟨fun i s => exec_of_form, ?_, ?_, ?_, fun i s => exec_of_failed_top, ?_⟩
  · intro s rn imm6 c mask hin
    simp only [List.forall_mem_cons]
    exact ⟨(exec_of_inside rfl · hin), (exec_of_inside rfl · hin), (exec_of_inside rfl · hin), List.forall_mem_nil _⟩
  · intro s rd rm c imm8 imm20 hin
    have hplace : Placement.outsideBlock.holds s = false := outsideBlock_holds_eq_false hin
    simp only [List.forall_mem_cons]
    exact ⟨(exec_of_place rfl · hplace), (exec_of_place rfl · hplace), (exec_of_place rfl · hplace),
      List.forall_mem_nil _⟩
  · intro s rm imm11 imm24 i hin hwrites hready
    have hplace : Placement.lastOfBlock.holds s = false := lastOfBlock_holds_eq_false hin
    obtain hbranch | hload := hwrites
    · simp only [List.mem_cons, List.not_mem_nil, or_false] at hbranch
      obtain rfl | rfl | rfl | rfl | rfl := hbranch
      all_goals exact exec_of_place rfl hready hplace
    · exact exec_of_place (takesCondition_of_loadsPc hload) hready (placement_of_loadsPc hload ▸ hplace)
  · intro i s acc a n hload hacc hready hlast ha hal
    obtain rfl := accesses_of_loadsPc hload hacc
    exact (exec_makesAccess hacc hready fun _ => hlast).eq_unalignedPcLoad hal hload ha

end Sys2Proof.Machine
end

section
/-! SUPPORT. The shifter (42_shift_operations R191 to R196): one equation for each shift of any length, what each computes, and
the shift instructions. -/

namespace Sys2Proof.Machine

/-! ## Every length at once -/

section
variable (x : Word)

/-- By 32 or more, an arithmetic shift leaves the sign in every bit. -/
theorem sshiftRight_of_le {n : Nat} (hn : 32 ≤ n) : x.sshiftRight n = BitVec.fill 32 (x.getLsbD 31) := by
  apply BitVec.eq_of_getLsbD_eq
  intro k hk
  rw [BitVec.getLsbD_sshiftRight, BitVec.getLsbD_fill, BitVec.msb_eq_getLsbD_last]
  simp [hk, show ¬n + k < 32 by omega]

/-- An arithmetic shift right in one equation for every length (R191). -/
theorem asrC_eq (n : Nat) : asrC x n = (x.sshiftRight n, x.getLsbD (min (n - 1) 31)) := by
  rw [asrC]
  split
  next hle => rw [Nat.min_eq_left (by omega)]
  next hgt =>
    rw [sshiftRight_of_le x (by omega), Nat.min_eq_right (by omega), BitVec.fill_eq]
    rfl

/-- A logical shift right likewise: a bit above bit[31] is 0 (R192). -/
theorem lsrC_eq (n : Nat) : lsrC x n = (x >>> n, x.getLsbD (n - 1)) := by
  rw [lsrC]
  split_ifs with hle heq
  · rfl
  · rw [heq, BitVec.ushiftRight_eq_zero le_rfl]
  · rw [BitVec.ushiftRight_eq_zero (by omega), BitVec.getLsbD_of_ge x _ (by omega)]

/-- A shift left likewise: a length above 32 shifts out nothing but zeros at last (R193). -/
theorem lslC_eq (n : Nat) : lslC x n = (x <<< n, decide (n ≤ 32) && x.getLsbD (32 - n)) := by
  rw [lslC]
  split_ifs with hle heq
  · rw [decide_eq_true (by omega), Bool.true_and]
  · rw [heq, BitVec.shiftLeft_eq_zero le_rfl]
    rfl
  · rw [BitVec.shiftLeft_eq_zero (by omega), decide_eq_false (by omega), Bool.false_and]

/-- A rotation likewise: bit[0] of the last of its single steps is the carry (R194). -/
theorem rorC_eq {n : Nat} (hn : 1 ≤ n) : rorC x n = (x.rotateRight n, x.getLsbD ((n - 1) % 32)) := by
  rw [← BitVec.rotateRight_mod_eq_rotateRight, rorC]
  split
  next hle =>
    rw [show (n - 1) % 32 + 1 = n % 32 by omega, show n % 32 - 1 = (n - 1) % 32 by omega]
  next hgt =>
    have hzero : x.rotateRight 0 = x := by simp [BitVec.rotateRight_def]
    rw [show n % 32 = 0 by omega, show (n - 1) % 32 = 31 by omega, hzero]

theorem getLsbD_rotateRight_word (n : Nat) {k : Nat} (hk : k < 32) :
    (x.rotateRight n).getLsbD k = x.getLsbD ((k + n) % 32) := by
  rw [BitVec.getLsbD_rotateRight]
  by_cases hlow : k < 32 - n % 32
  · rw [decide_eq_true hlow, cond_true, show n % 32 + k = (k + n) % 32 by omega]
  · rw [decide_eq_false hlow, cond_false, decide_eq_true hk, Bool.true_and,
      show k - (32 - n % 32) = (k + n) % 32 by omega]

/-- The length of a rotation counts modulo 32 only. -/
theorem rorC_congr {m n : Nat} (h : (m - 1) % 32 = (n - 1) % 32) : rorC x m = rorC x n := by
  simp only [rorC, h]

end

/-! ## Shifts as arithmetic (R191 to R193) -/

section
variable (x : Word) (n : Nat)

theorem getLsbD_eq_div_mod : x.getLsbD n = decide (x.toNat / 2 ^ n % 2 = 1) := Nat.testBit_eq_decide_div_mod_eq

theorem asrC_value : (asrC x n).1 = BitVec.ofInt 32 (x.toInt / 2 ^ n) := by
  rw [asrC_eq, BitVec.sshiftRight, Int.shiftRight_eq_div_pow]
  norm_cast

theorem lsrC_value : (lsrC x n).1.toNat = x.toNat / 2 ^ n := by
  rw [lsrC_eq, BitVec.toNat_ushiftRight, Nat.shiftRight_eq_div_pow]

theorem lslC_value : (lslC x n).1.toNat = x.toNat * 2 ^ n % 2 ^ 32 := by
  rw [lslC_eq, BitVec.toNat_shiftLeft, Nat.shiftLeft_eq]

/-- Bit[32 - n] of the register is bit[32] of the product. -/
theorem lslC_carry {n : Nat} (hn : n ≤ 32) : (lslC x n).2 = decide (x.toNat * 2 ^ n / 2 ^ 32 % 2 = 1) := by
  have hdiv : x.toNat * 2 ^ n / 2 ^ 32 = x.toNat / 2 ^ (32 - n) := by
    rw [← Nat.pow_sub_mul_pow 2 hn, Nat.mul_div_mul_right _ _ (Nat.two_pow_pos n)]
  rw [lslC_eq, decide_eq_true hn, Bool.true_and, getLsbD_eq_div_mod, hdiv]

end

/-- Settles O35, from the one equation of each shift. -/
theorem shiftArithmetic : Obligations.ShiftArithmetic := by
  intro x n hn
  refine ⟨asrC_value x n, by rw [asrC_eq], lsrC_value x n, ?_, lslC_value x n, lslC_carry x, fun hgt => ?_⟩
  · rw [lsrC_eq, getLsbD_eq_div_mod]
  · rw [lslC_eq, decide_eq_false (by omega), Bool.false_and]

/-! ## The table of results (R204) -/

section
variable (x : Word) {n : Nat} (c : Bool) (hn : n ≠ 0)
include hn

theorem shiftC_asr : shiftC x .asr n c = (x.sshiftRight n, x.getLsbD (min (n - 1) 31)) := (if_neg hn).trans (asrC_eq x n)

theorem shiftC_lsr : shiftC x .lsr n c = (x >>> n, x.getLsbD (n - 1)) := (if_neg hn).trans (lsrC_eq x n)

theorem shiftC_lsl : shiftC x .lsl n c = (x <<< n, decide (n ≤ 32) && x.getLsbD (32 - n)) :=
  (if_neg hn).trans (lslC_eq x n)

theorem shiftC_ror : shiftC x .ror n c = rorC x n := if_neg hn

end

theorem shiftC_short (x : Word) (c : Bool) {n : Nat} (h1 : 1 ≤ n) (h31 : n ≤ 31) :
    shiftC x .asr n c = (x.sshiftRight n, x.getLsbD (n - 1)) ∧ shiftC x .lsr n c = (x >>> n, x.getLsbD (n - 1)) ∧
      shiftC x .lsl n c = (x <<< n, x.getLsbD (32 - n)) ∧ shiftC x .ror n c = (x.rotateRight n, x.getLsbD (n - 1)) := by
  have hn : n ≠ 0 := by omega
  refine ⟨?_, shiftC_lsr x c hn, ?_, ?_⟩
  · rw [shiftC_asr x c hn, Nat.min_eq_left (by omega)]
  · rw [shiftC_lsl x c hn, decide_eq_true (by omega), Bool.true_and]
  · rw [shiftC_ror x c hn, rorC_eq x h1, Nat.mod_eq_of_lt (by omega)]

theorem shiftC_asr_long (x : Word) (c : Bool) {n : Nat} (h32 : 32 ≤ n) :
    shiftC x .asr n c = (BitVec.fill 32 (x.getLsbD 31), x.getLsbD 31) := by
  rw [shiftC_asr x c (by omega), sshiftRight_of_le x h32, Nat.min_eq_right (by omega)]

theorem shiftC_long (x : Word) (c : Bool) {n : Nat} (h33 : 33 ≤ n) :
    shiftC x .lsr n c = (0#32, false) ∧ shiftC x .lsl n c = (0#32, false) ∧
      shiftC x .ror n c = shiftC x .ror (n - 32) c := by
  have hn : n ≠ 0 := by omega
  refine ⟨?_, ?_, ?_⟩
  · rw [shiftC_lsr x c hn, BitVec.ushiftRight_eq_zero (by omega), BitVec.getLsbD_of_ge x _ (by omega)]
  · rw [shiftC_lsl x c hn, BitVec.shiftLeft_eq_zero (by omega), decide_eq_false (by omega), Bool.false_and]
  · rw [shiftC_ror x c hn, shiftC_ror x c (by omega)]
    exact rorC_congr x (by omega)

/-- Settles O36, row by row. -/
theorem shiftTable : Obligations.ShiftTable := by
  intro x c
  refine ⟨?_, fun n => shiftC_short x c, shiftC_asr_long x c le_rfl, rfl, rfl, rfl, fun n h33 _ =>
    ⟨shiftC_asr_long x c (by omega), shiftC_long x c h33⟩⟩
  simp only [List.forall_mem_cons]
  exact ⟨rfl, rfl, rfl, rfl, List.forall_mem_nil _⟩

/-! ## Rotations (R194, R195) -/

/-- Settles O37, from the bits of a rotated word. -/
theorem rotateRight : Obligations.RotateRight := by
  intro x n hn
  refine ⟨?_, fun k hk => ?_, rorC_congr x (by omega), rorC_congr x (by omega)⟩
  · rw [rorC_eq x hn, getLsbD_rotateRight_word x n (by decide), show (n - 1) % 32 = (31 + n) % 32 by omega]
  · rw [rorC_eq x hn, getLsbD_rotateRight_word x n hk]

/-- RRX of a word and a carry, as one pair. -/
def rrxPair (p : Word × Bool) : Word × Bool := rrxC p.1 p.2

/-- Bit `k` of the ring of 33 bits that a word and a carry above it make. -/
def ringBit (p : Word × Bool) (k : Nat) : Bool := if k % 33 = 32 then p.2 else p.1.getLsbD (k % 33)

theorem ringBit_add_33 (p : Word × Bool) (k : Nat) : ringBit p (k + 33) = ringBit p k := by
  rw [ringBit, Nat.add_mod_right, ringBit]

theorem ringBit_ext {p q : Word × Bool} (h : ∀ k, ringBit p k = ringBit q k) : p = q := by
  refine Prod.ext (BitVec.eq_of_getLsbD_eq fun k hk => ?_) (h 32)
  have hbit := h k
  rwa [ringBit, ringBit, Nat.mod_eq_of_lt (by omega), if_neg (by omega), if_neg (by omega)] at hbit

/-- The carry that RRX takes into bit[31]. -/
theorem getLsbD_carryIn (c : Bool) (k : Nat) :
    (if c then 0x80000000#32 else 0#32).getLsbD k = (c && decide (k = 31)) := by
  cases c with
  | false => exact BitVec.getLsbD_zero
  | true =>
    change (BitVec.twoPow 32 31).getLsbD k = _
    rw [BitVec.getLsbD_twoPow]
    simp [eq_comm]

/-- Bit[31] is the carry, and every other bit is the bit above it. -/
theorem getLsbD_rrxC (x : Word) (c : Bool) (k : Nat) :
    (rrxC x c).1.getLsbD k = if k = 31 then c else x.getLsbD (k + 1) := by
  rw [rrxC, BitVec.getLsbD_or, BitVec.getLsbD_ushiftRight, Nat.add_comm 1 k, getLsbD_carryIn]
  split_ifs with htop
  · rw [htop, BitVec.getLsbD_of_ge x _ le_rfl, decide_eq_true rfl, Bool.and_true, Bool.false_or]
  · rw [decide_eq_false htop, Bool.and_false, Bool.or_false]

theorem ringBit_rrxPair (p : Word × Bool) (k : Nat) : ringBit (rrxPair p) k = ringBit p (k + 1) := by
  obtain htop | htop | hlow : k % 33 = 32 ∨ k % 33 = 31 ∨ k % 33 < 31 := by omega
  · rw [ringBit, if_pos htop, ringBit, show (k + 1) % 33 = 0 by omega]
    rfl
  · rw [ringBit, ringBit, if_neg (by omega), if_pos (by omega), rrxPair, getLsbD_rrxC, if_pos htop]
  · rw [ringBit, ringBit, if_neg (by omega), if_neg (by omega), rrxPair, getLsbD_rrxC, if_neg (by omega),
      show (k + 1) % 33 = k % 33 + 1 by omega]

theorem ringBit_rrxPair_iterate (n : Nat) (p : Word × Bool) (k : Nat) : ringBit (rrxPair^[n] p) k = ringBit p (k + n) := by
  induction n generalizing p with
  | zero => rfl
  | succ n ih => rw [Function.iterate_succ_apply, ih, ringBit_rrxPair, Nat.add_assoc]

theorem rrxC_value (x : Word) (c : Bool) : (rrxC x c).1.toNat = c.toNat * 2 ^ 31 + x.toNat / 2 := by
  have hx := x.isLt
  have hcarry : (if c then 0x80000000#32 else 0#32).toNat = c.toNat <<< 31 := by cases c <;> rfl
  rw [rrxC, BitVec.toNat_or, hcarry, BitVec.toNat_ushiftRight, Nat.shiftRight_eq_div_pow, Nat.or_comm,
    ← Nat.shiftLeft_add_eq_or_of_lt (by omega), Nat.shiftLeft_eq, Nat.pow_one]

/-- Settles O38: RRX turns the ring of 33 bits by one. -/
theorem rotateWithExtend : Obligations.RotateWithExtend := by
  refine ⟨fun x c => ⟨rrxC_value x c, rfl⟩, fun x c => ringBit_ext fun k => ?_⟩
  exact (ringBit_rrxPair_iterate 33 (x, c) k).trans (ringBit_add_33 (x, c) k)

/-! ## The shift instructions (R197 to R203) -/

section
variable {i : Instr} {n : Nat} {sf : Bool} {rd : Reg} {s : State}

/-- A shift instruction completes with the register shifted, and with S its flags. -/
theorem shiftTo_writesResult {rm : Reg} {op : ShiftOp} {len : Nat} (hown : i.ownCond = .al) (hn : width i = n)
    (hrd : i.wellFormed = true → rd.isGpr = true) (hready : Ready i s) (hroom : Room n s) :
    ∃ t, shiftTo i sf rd rm op len s = .next t ∧
      WritesResult n rd (shiftC (s.reg rm) op len s.flags.c).1
        (if sf then resultFlags s (shiftC (s.reg rm) op len s.flags.c).1 (shiftC (s.reg rm) op len s.flags.c).2
          else s.flags) s t :=
  logicalTo_writesResult hown hn hrd hready hroom

/-- The 16-bit ones set the flags outside an IT block (30_encoding R118). -/
theorem shiftTo16_writesResult {rd : LowReg} {rm : Reg} {op : ShiftOp} {len : Nat} (hown : i.ownCond = .al)
    (hn : width i = 2) (hready : Ready i s) (hroom : Room 2 s) :
    ∃ t, shiftTo i (setsFlags16 s) rd.reg rm op len s = .next t ∧
      WritesResult 2 rd.reg (shiftC (s.reg rm) op len s.flags.c).1
        (if s.itstate.isEmpty then
          resultFlags s (shiftC (s.reg rm) op len s.flags.c).1 (shiftC (s.reg rm) op len s.flags.c).2
          else s.flags) s t :=
  shiftTo_writesResult hown hn (fun _ => LowReg.isGpr_reg rd) hready hroom

end

/-- Settles O28: each instruction is `shiftTo` of its register, its shift and its length. -/
theorem shiftInstructionResults : Obligations.ShiftInstructionResults := by
  intro sf a b rd rm rs imm5 s out n32 lb ls
  simp only [List.forall_mem_cons]
  exact ⟨shiftTo16_writesResult rfl rfl, shiftTo16_writesResult rfl rfl, shiftTo16_writesResult rfl rfl,
    shiftTo16_writesResult rfl rfl, shiftTo16_writesResult rfl rfl, shiftTo16_writesResult rfl rfl,
    shiftTo16_writesResult rfl rfl, shiftTo_writesResult rfl rfl and_and_elim_left,
    shiftTo_writesResult rfl rfl Bool.and_elim_left, shiftTo_writesResult rfl rfl Bool.and_elim_left,
    shiftTo_writesResult rfl rfl and_and_elim_left, shiftTo_writesResult rfl rfl and_and_elim_left,
    shiftTo_writesResult rfl rfl and_and_elim_left, shiftTo_writesResult rfl rfl and_and_elim_left,
    shiftTo_writesResult rfl rfl and_and_elim_left, shiftTo_writesResult rfl rfl Bool.and_elim_left,
    List.forall_mem_nil _⟩

end Sys2Proof.Machine
end

section
/-! SUPPORT. Single loads and stores that go through (43_load_store R211 to R223, R226): the address and the writeback of each
form, and what a load of a word, of the PC, of a halfword and a store leave, one lemma per family of instructions. -/

namespace Sys2Proof.Machine

/-! ## Frames and writebacks -/

section
variable {rs : List Reg} {s t : State} {wb : Option (Reg × Word)}

theorem Frame.mono {rs' : List Reg} (h : Frame rs s t) (hsub : rs ⊆ rs') : Frame rs' s t :=
  ⟨fun r hpc hr => h.regs r hpc (mt (@hsub r) hr), fun hm => h.msp (hm.imp_left (mt (@hsub .sp))),
    fun hp => h.psp (hp.imp_left (mt (@hsub .sp))), h.primask, h.faultmask, h.basepri, h.control, h.unalignTrp, h.cfg⟩

theorem Frame.writeBack (h : Frame rs s t) (hwb : ∀ q ∈ wb, q.1 ∈ rs) : Frame rs s (t.writeBack wb) := by
  cases wb with
  | none => exact h
  | some q => exact h.setReg (hwb q rfl) q.2

/-- Going on to another address writes no register of the frame. -/
theorem Frame.withPc (h : Frame rs s t) (pc : Word) (it : List Cond) :
    Frame rs s { t with pc := pc, itstate := it } :=
  h.of_fields rfl rfl rfl rfl rfl rfl rfl rfl rfl rfl

theorem fst_mem_of_mem_writeback {q : Reg × Word} (hq : q ∈ wb) : q.1 ∈ wb.toList.map Prod.fst :=
  List.mem_map_of_mem (Option.mem_toList.2 hq)

theorem State.reg_writeBack (s : State) {q : Reg × Word} (hq : q ∈ wb) (hpc : q.1 ≠ .pc) :
    (s.writeBack wb).reg q.1 = held q.1 q.2 := by
  obtain rfl := Option.mem_def.1 hq
  exact s.reg_setReg_self q.1 q.2 hpc

theorem State.reg_writeBack_of_ne (s : State) {r : Reg} (hr : ∀ q ∈ wb, q.1 ≠ r) : (s.writeBack wb).reg r = s.reg r := by
  cases wb with
  | none => rfl
  | some q => exact s.reg_setReg_ne q.1 r q.2 (hr q rfl).symm

end

/-- A writeback form's base is not the PC and not the register transferred. -/
theorem indexOk_iff {rt rn : Reg} : indexOk rt rn = true ↔ rn ≠ .pc ∧ rn ≠ rt := by
  rw [indexOk, Reg.notPc, Bool.and_eq_true, decide_eq_true_iff, decide_eq_true_iff]

/-- The writeback of `rn`, as one of the registers written back. -/
theorem indexOk_of_some {rt rn : Reg} {v : Word} (h : indexOk rt rn = true) : ∀ q ∈ some (rn, v), indexOk rt q.1 = true := by
  rintro _ ⟨⟩
  exact h

theorem indexOk_of_some_and {rt rn : Reg} {v : Word} {b : Bool} (h : (indexOk rt rn && b) = true) :
    ∀ q ∈ some (rn, v), indexOk rt q.1 = true := indexOk_of_some (Bool.and_elim_left h)

/-! ## Addressing forms (R211, R212; 30_encoding R103) -/

/-- From `s` the form accesses the address `a` and writes back `wb`. -/
def AddrForm.Gives (f : AddrForm) (s : State) (a : Word) (wb : Option (Reg × Word)) : Prop :=
  f.address s = a ∧ f.writeback s = wb

section
variable {s : State} {w c n : Nat} {imm : BitVec w} {rn rm : Reg} {off : Word} {u : Bool}

theorem ofNat_mul_toNat (c : Nat) (imm : BitVec w) :
    BitVec.ofNat 32 (c * imm.toNat) = BitVec.ofNat 32 c * imm.setWidth 32 := by
  rw [BitVec.ofNat_mul, BitVec.ofNat_toNat]

theorem add_signedOffset (x : Word) (u : Bool) (imm : BitVec w) :
    x + signedOffset u imm.toNat = if u then x + imm.setWidth 32 else x - imm.setWidth 32 := by
  cases u
  case false => exact (BitVec.sub_eq_add_neg ..).symm ▸ congrArg (x + -·) (BitVec.ofNat_toNat ..)
  case true => exact congrArg (x + ·) (BitVec.ofNat_toNat ..)

theorem AddrForm.Gives.offset : (AddrForm.offset rn off).Gives s (s.reg rn + off) none := ⟨rfl, rfl⟩

theorem AddrForm.Gives.scaled :
    (AddrForm.offset rn (BitVec.ofNat 32 (c * imm.toNat))).Gives s (s.reg rn + BitVec.ofNat 32 c * imm.setWidth 32) none :=
  ⟨congrArg (s.reg rn + ·) (ofNat_mul_toNat c imm), rfl⟩

theorem AddrForm.Gives.negative :
    (AddrForm.offset rn (signedOffset false imm.toNat)).Gives s (s.reg rn - imm.setWidth 32) none :=
  ⟨add_signedOffset (s.reg rn) false imm, rfl⟩

theorem AddrForm.Gives.preIndexed :
    (AddrForm.preIndexed rn (signedOffset u imm.toNat)).Gives s
      (if u then s.reg rn + imm.setWidth 32 else s.reg rn - imm.setWidth 32)
      (some (rn, if u then s.reg rn + imm.setWidth 32 else s.reg rn - imm.setWidth 32)) := by
  rw [← add_signedOffset]
  exact ⟨rfl, rfl⟩

theorem AddrForm.Gives.postIndexed :
    (AddrForm.postIndexed rn (signedOffset u imm.toNat)).Gives s (s.reg rn)
      (some (rn, if u then s.reg rn + imm.setWidth 32 else s.reg rn - imm.setWidth 32)) := by
  rw [← add_signedOffset]
  exact ⟨rfl, rfl⟩

theorem AddrForm.Gives.register :
    (AddrForm.register rn rm n).Gives s (s.reg rn + s.reg rm * BitVec.ofNat 32 (2 ^ n)) none := by
  refine ⟨congrArg (s.reg rn + ·) ?_, rfl⟩
  rw [BitVec.shiftLeft_eq_mul_twoPow]
  congr 1
  apply BitVec.eq_of_toNat_eq
  rw [BitVec.toNat_twoPow, BitVec.toNat_ofNat]

theorem AddrForm.Gives.register_unshifted :
    (AddrForm.register rn rm 0).Gives s (s.reg rn + s.reg rm) none :=
  ⟨congrArg (s.reg rn + ·) (BitVec.shiftLeft_zero _), rfl⟩

theorem AddrForm.Gives.literal_scaled :
    (AddrForm.literal (BitVec.ofNat 32 (c * imm.toNat))).Gives s
      (((s.pc + 4#32) &&& 0xFFFFFFFD#32) + BitVec.ofNat 32 c * imm.setWidth 32) none :=
  ⟨congrArg (pcAlign s.pc + ·) (ofNat_mul_toNat c imm), rfl⟩

theorem AddrForm.Gives.literal :
    (AddrForm.literal (signedOffset u imm.toNat)).Gives s
      (if u then ((s.pc + 4#32) &&& 0xFFFFFFFD#32) + imm.setWidth 32
        else ((s.pc + 4#32) &&& 0xFFFFFFFD#32) - imm.setWidth 32) none :=
  ⟨add_signedOffset (pcAlign s.pc) u imm, rfl⟩

end

/-! ## Accesses that go through -/

/-- An instruction that may load the PC stands where it may: last in a block when it does. -/
theorem lastOfBlock_holds_if {c : Prop} [Decidable c] {s : State} (h : c → s.itstate.length ≤ 1) :
    (if c then Placement.lastOfBlock else .anywhere).holds s = true := by
  split
  next hc => exact decide_eq_true (h hc)
  next => rfl

section
variable {i : Instr} {s u : State} {n : Nat} {rt : Reg} {form : AddrForm} {a : Word} {wb : Option (Reg × Word)}

theorem readAt_of_loadOk (h : LoadOk n a s) : readAt a.toNat n s = .next (s.mem.readLe a.toNat n) :=
  readAt_eq_next.2 ⟨h.1, h.2, rfl⟩

theorem retire_of_room (hn : width i = n) (hroom : Room n s) (hpc : u.pc = s.pc) : retire i u = .next (u.advanced n) := by
  subst hn
  exact retire_eq_next.2 ⟨hroom.of_pc_eq hpc, rfl⟩

/-- The effect of a load of a word once its checks have passed: to the PC, or to another register. -/
theorem loadWord_of_ready (hform : form.Gives s a wb) (hown : i.ownCond = .al) (hready : Ready i s)
    (hplace : rt = .pc → s.itstate.length ≤ 1 ∧ a.toNat % 4 = 0) (hal : AlignOk 4 a s) (hload : LoadOk 4 a s) :
    loadWord i rt form s =
      if rt = .pc then loadWritePc (wordAt s.mem a.toNat) s (s.writeBack wb)
      else retire i ((s.writeBack wb).setReg rt (wordAt s.mem a.toNat)) := by
  obtain ⟨hc, hw⟩ := hready
  obtain ⟨rfl, rfl⟩ := hform
  rw [hown] at hc
  have hpc : ¬(decide (rt = .pc) && !aligned (form.address s) .word) = true := by
    simpa [AccessClass.word_alignsTo (form.address s)] using fun h => (hplace h).2
  rw [loadWord, conditionalAs_passed hc hw (lastOfBlock_holds_if fun h => (hplace h).1),
    checkAlign_of_alignOk AccessClass.word_alignsTo hal, andThen_next, if_neg hpc, readAt_of_loadOk hload, andThen_next,
    Memory.readLe_four]

/-- What a load leaves that writes back `wb` and then `v` to `rt`, and goes on after `n` bytes. -/
theorem writeBack_setReg_advanced (hrt : rt ≠ .pc) (hwb : ∀ q ∈ wb, indexOk rt q.1 = true) (v : Word) :
    let t := ((s.writeBack wb).setReg rt v).advanced n
    t.reg rt = held rt v ∧ (∀ q ∈ wb, t.reg q.1 = held q.1 q.2) ∧ t.flags = s.flags ∧
      Frame (rt :: wb.toList.map Prod.fst) s t ∧ SameMem s t ∧ Advanced n s t := by
  intro t
  have hbase : ∀ q ∈ wb, t.reg q.1 = held q.1 q.2 := fun q hq => by
    obtain ⟨hpc, hne⟩ := indexOk_iff.1 (hwb q hq)
    rw [State.advanced_reg _ n hpc, State.reg_setReg_ne _ _ _ _ hne, State.reg_writeBack s hq hpc]
  have hframe : Frame (rt :: wb.toList.map Prod.fst) s (s.writeBack wb) :=
    (Frame.refl s _).writeBack fun q hq => List.mem_cons_of_mem _ (fst_mem_of_mem_writeback hq)
  refine ⟨?_, hbase, by simp [t], (hframe.setReg List.mem_cons_self v).withPc _ _, fun b => by simp [t], by simp [t, Advanced]⟩
  rw [State.advanced_reg _ n hrt, State.reg_setReg_self _ _ _ hrt]

/-! ## LDR and LDRT (R214, R215) -/

theorem loadWord_completes (hform : form.Gives s a wb) (hwb : i.wellFormed = true → ∀ q ∈ wb, indexOk rt q.1 = true)
    (hown : i.ownCond = .al) (hn : width i = n) (hready : Ready i s) (hroom : Room n s) (hrt : rt ≠ .pc)
    (hal : AlignOk 4 a s) (hload : LoadOk 4 a s) :
    ∃ t, loadWord i rt form s = .next t ∧ t.reg rt = held rt (wordAt s.mem a.toNat) ∧
      (∀ q ∈ wb, t.reg q.1 = held q.1 q.2) ∧ t.flags = s.flags ∧ Frame (rt :: wb.toList.map Prod.fst) s t ∧
      SameMem s t ∧ Advanced n s t := by
  refine ⟨_, ?_, writeBack_setReg_advanced hrt (hwb hready.2) _⟩
  rw [loadWord_of_ready hform hown hready (absurd · hrt) hal hload, if_neg hrt]
  exact retire_of_room hn hroom (by simp)

end

/-- Settles O43: each form gives its address and its writeback (`AddrForm.Gives`), and a load of a word that passes its checks
completes (`loadWord_completes`). -/
theorem loadWordResults : Obligations.LoadWordResults := by
  intro x y z rt rn rm u imm5 imm8 imm12 imm2 s base off8 pcRel
  simp only [List.forall_mem_cons]
  exact ⟨loadWord_completes .literal_scaled nofun rfl rfl,
    loadWord_completes .register_unshifted nofun rfl rfl,
    loadWord_completes .scaled nofun rfl rfl,
    loadWord_completes .scaled nofun rfl rfl,
    loadWord_completes .offset nofun rfl rfl,
    loadWord_completes .negative nofun rfl rfl,
    loadWord_completes .preIndexed indexOk_of_some rfl rfl,
    loadWord_completes .postIndexed indexOk_of_some_and rfl rfl,
    loadWord_completes .offset nofun rfl rfl,
    loadWord_completes .register nofun rfl rfl,
    loadWord_completes .literal nofun rfl rfl,
    List.forall_mem_nil _⟩

/-! ## LDR of the PC (R214, R226) -/

section
variable {i : Instr} {s : State} {form : AddrForm} {a : Word} {wb : Option (Reg × Word)}

theorem loadPc_completes (hform : form.Gives s a wb) (hwb : i.wellFormed = true → ∀ q ∈ wb, indexOk .pc q.1 = true)
    (hown : i.ownCond = .al) (hready : Ready i s) (hlast : s.itstate.length ≤ 1) (ha : a.toNat % 4 = 0)
    (hload : LoadOk 4 a s) :
    ((wordAt s.mem a.toNat).getLsbD 0 = true → ¬InItBlock s.mem s.cfg (wordAt s.mem a.toNat &&& 0xFFFFFFFE#32) →
      ∃ t, loadWord i .pc form s = .next t ∧ Jumped (wordAt s.mem a.toNat &&& 0xFFFFFFFE#32) s t ∧
        (∀ q ∈ wb, t.reg q.1 = held q.1 q.2) ∧ t.flags = s.flags ∧ Frame (wb.toList.map Prod.fst) s t ∧ SameMem s t) ∧
    ((wordAt s.mem a.toNat).getLsbD 0 = false → loadWord i .pc form s = .fault (.usageFault .invstate s.pc)) := by
  rw [loadWord_of_ready hform hown hready (fun _ => ⟨hlast, ha⟩) (.inl ha) hload, if_pos rfl]
  refine ⟨fun hbit hblock => ?_, fun hbit => loadWritePc_eq_fault.2 ⟨hbit, rfl⟩⟩
  have hframe : Frame (wb.toList.map Prod.fst) s (s.writeBack wb) :=
    (Frame.refl s _).writeBack fun q hq => fst_mem_of_mem_writeback hq
  refine ⟨_, loadWritePc_eq_next.2 ⟨hbit, by simpa using hblock, rfl⟩, by simp [Jumped], fun q hq => ?_, by simp,
    hframe.withPc _ _, fun b => by simp⟩
  have hpc : q.1 ≠ .pc := (indexOk_iff.1 (hwb hready.2 q hq)).1
  rw [State.reg_withPc _ _ _ hpc, State.reg_writeBack s hq hpc]

end

/-- Settles O46: each form gives its address and its writeback, and a load of the PC that passes its checks ends in the write of
the PC (`loadPc_completes`). -/
theorem loadPcResults : Obligations.LoadPcResults := by
  intro rn rm u imm8 imm12 imm2 s base off8 pcRel
  simp only [List.forall_mem_cons]
  exact ⟨loadPc_completes .offset nofun rfl, loadPc_completes .negative nofun rfl,
    loadPc_completes .preIndexed indexOk_of_some rfl,
    loadPc_completes .postIndexed indexOk_of_some_and rfl,
    loadPc_completes .register nofun rfl, loadPc_completes .literal nofun rfl, List.forall_mem_nil _⟩

/-! ## LDRH, LDRHT, LDRSH and LDRSHT (R216 to R219) -/

theorem extendHalf_zero (h : BitVec 16) : extendHalf .zero (h.setWidth 32) = h.setWidth 32 :=
  congrArg (BitVec.setWidth 32) (BitVec.setWidth_setWidth_of_le h (by decide))

theorem extendHalf_sign (h : BitVec 16) : extendHalf .sign (h.setWidth 32) = h.signExtend 32 :=
  congrArg (BitVec.signExtend 32) (BitVec.setWidth_setWidth_of_le h (by decide))

section
variable {i : Instr} {s : State} {n : Nat} {rt : Reg} {form : AddrForm} {a : Word} {wb : Option (Reg × Word)}

theorem loadHalf_completes {ext : Extend} {v : Word} (hform : form.Gives s a wb)
    (hv : extendHalf ext ((halfAt s.mem a.toNat).setWidth 32) = v) (hrt : i.wellFormed = true → rt.isGpr = true)
    (hwb : i.wellFormed = true → ∀ q ∈ wb, indexOk rt q.1 = true) (hown : i.ownCond = .al) (hn : width i = n)
    (hready : Ready i s) (hroom : Room n s) (hal : AlignOk 2 a s) (hload : LoadOk 2 a s) :
    ∃ t, loadHalf i rt form ext s = .next t ∧ t.reg rt = v ∧ (∀ q ∈ wb, t.reg q.1 = held q.1 q.2) ∧
      t.flags = s.flags ∧ Frame (rt :: wb.toList.map Prod.fst) s t ∧ SameMem s t ∧ Advanced n s t := by
  obtain ⟨hc, hw⟩ := hready
  obtain ⟨rfl, rfl⟩ := hform
  obtain ⟨hsp, hpc⟩ : rt ≠ .sp ∧ rt ≠ .pc := by simpa [Reg.isGpr] using hrt hw
  obtain ⟨hreg, hrest⟩ := writeBack_setReg_advanced (s := s) (n := n) hpc (hwb hw) v
  refine ⟨_, ?_, hreg.trans (if_neg hsp), hrest⟩
  rw [hown] at hc
  rw [loadHalf, conditional, conditionalAs_passed hc hw rfl, memRead,
    checkAlign_of_alignOk AccessClass.halfword_alignsTo hal, andThen_next, readAt_of_loadOk hload, andThen_next,
    Memory.readLe_two, hv]
  exact retire_of_room hn hroom (by simp)

end

/-- Settles O44: each form gives its address and its writeback, and a load of a halfword that passes its checks completes
(`loadHalf_completes`). -/
theorem loadHalfResults : Obligations.LoadHalfResults := by
  intro x y z rt rn rm u imm5 imm8 imm12 imm2 s base off8 pcRel scaled
  have hx (i : Instr) : i.wellFormed = true → x.reg.isGpr = true := fun _ => LowReg.isGpr_reg x
  simp only [List.forall_mem_cons]
  exact ⟨loadHalf_completes .register_unshifted (extendHalf_zero _) (hx _) nofun rfl rfl,
    loadHalf_completes .scaled (extendHalf_zero _) (hx _) nofun rfl rfl,
    loadHalf_completes .offset (extendHalf_zero _) Bool.and_elim_right nofun rfl rfl,
    loadHalf_completes .negative (extendHalf_zero _) Bool.and_elim_right nofun rfl rfl,
    loadHalf_completes .preIndexed (extendHalf_zero _) Bool.and_elim_right
      indexOk_of_some_and rfl rfl,
    loadHalf_completes .postIndexed (extendHalf_zero _) Bool.and_elim_right
      indexOk_of_some_and rfl rfl,
    loadHalf_completes .offset (extendHalf_zero _) Bool.and_elim_right nofun rfl rfl,
    loadHalf_completes .register (extendHalf_zero _) (fun h => Bool.and_elim_right (Bool.and_elim_left h)) nofun rfl rfl,
    loadHalf_completes .literal (extendHalf_zero _) id nofun rfl rfl,
    loadHalf_completes .register_unshifted (extendHalf_sign _) (hx _) nofun rfl rfl,
    loadHalf_completes .offset (extendHalf_sign _) Bool.and_elim_right nofun rfl rfl,
    loadHalf_completes .negative (extendHalf_sign _) Bool.and_elim_right nofun rfl rfl,
    loadHalf_completes .preIndexed (extendHalf_sign _) Bool.and_elim_right
      indexOk_of_some_and rfl rfl,
    loadHalf_completes .postIndexed (extendHalf_sign _) Bool.and_elim_right
      indexOk_of_some_and rfl rfl,
    loadHalf_completes .offset (extendHalf_sign _) Bool.and_elim_right nofun rfl rfl,
    loadHalf_completes .register (extendHalf_sign _) (fun h => Bool.and_elim_right (Bool.and_elim_left h)) nofun rfl rfl,
    loadHalf_completes .literal (extendHalf_sign _) id nofun rfl rfl, List.forall_mem_nil _⟩

/-! ## STR, STRT, STRH and STRHT (R220 to R223) -/

section
variable {i : Instr} {s : State} {n size : Nat} {rt : Reg} {form : AddrForm} {a : Word} {wb : Option (Reg × Word)}

theorem writeAt_of_storeOk (v : Word) (h : StoreOk n a s) :
    writeAt a.toNat n v s = .next { s with mem := s.mem.writeLe a.toNat n v } :=
  writeAt_eq_next.2 ⟨h.1, h.2.1, h.2.2, rfl⟩

/-- What a store of `m` leaves that then writes back `wb` and goes on after `n` bytes. -/
theorem withMem_writeBack_advanced (m : Memory) (hwb : ∀ q ∈ wb, indexOk rt q.1 = true) :
    let t := (State.writeBack { s with mem := m } wb).advanced n
    t.mem = m ∧ (∀ q ∈ wb, t.reg q.1 = held q.1 q.2) ∧ t.flags = s.flags ∧ Frame (wb.toList.map Prod.fst) s t ∧
      Advanced n s t := by
  intro t
  have hbase : ∀ q ∈ wb, t.reg q.1 = held q.1 q.2 := fun q hq => by
    have hpc : q.1 ≠ .pc := (indexOk_iff.1 (hwb q hq)).1
    rw [State.advanced_reg _ n hpc, State.reg_writeBack _ hq hpc]
  have hframe : Frame (wb.toList.map Prod.fst) s { s with mem := m } :=
    (Frame.refl s _).of_fields rfl rfl rfl rfl rfl rfl rfl rfl rfl rfl
  exact ⟨by simp [t], hbase, by simp [t], (hframe.writeBack fun q hq => fst_mem_of_mem_writeback hq).withPc _ _,
    by simp [t, Advanced]⟩

theorem store_completes {cls : AccessClass} (hform : form.Gives s a wb) (hcls : cls.AlignsTo size)
    (hwb : i.wellFormed = true → ∀ q ∈ wb, indexOk rt q.1 = true) (hown : i.ownCond = .al) (hn : width i = n)
    (hready : Ready i s) (hroom : Room n s) (hmem : s.mem.wf = true) (hal : AlignOk size a s)
    (hstore : StoreOk size a s) :
    ∃ t, store i rt form cls size s = .next t ∧
      (∀ k, k < size → t.mem.read (a.toNat + k) = (s.reg rt).extractLsb' (8 * k) 8) ∧ SameMemOutside a.toNat size s t ∧
      (∀ q ∈ wb, t.reg q.1 = held q.1 q.2) ∧ t.flags = s.flags ∧ Frame (wb.toList.map Prod.fst) s t ∧
      Advanced n s t := by
  obtain ⟨hc, hw⟩ := hready
  obtain ⟨rfl, rfl⟩ := hform
  rw [hown] at hc
  obtain ⟨hread, hrest⟩ := withMem_writeBack_advanced (s := s) (n := n)
    (s.mem.writeLe (form.address s).toNat size (s.reg rt)) (hwb hw)
  refine ⟨_, ?_, fun k hk => ?_, fun b hb => ?_, hrest⟩
  · rw [store, conditional, conditionalAs_passed hc hw rfl, memWrite, checkAlign_of_alignOk hcls hal, andThen_next,
      writeAt_of_storeOk _ hstore, andThen_next]
    exact retire_of_room hn hroom (by simp)
  · rw [hread]
    exact Memory.read_writeLe_of_inside _ hmem hstore.1 hk
  · rw [hread]
    exact Memory.read_writeLe_of_outside _ _ hb

end

/-- Settles O45: each form gives its address and its writeback, and a store that passes its checks completes
(`store_completes`). -/
theorem storeResults : Obligations.StoreResults := by
  intro x y z rt rn rm u imm5 imm8 imm12 imm2 s off8 scaled
  have hword := AccessClass.word_alignsTo
  have hhalf := AccessClass.halfword_alignsTo
  simp only [List.forall_mem_cons]
  exact ⟨store_completes .register_unshifted hword nofun rfl rfl, store_completes .scaled hword nofun rfl rfl,
    store_completes .scaled hword nofun rfl rfl, store_completes .offset hword nofun rfl rfl,
    store_completes .negative hword nofun rfl rfl,
    store_completes .preIndexed hword indexOk_of_some_and rfl rfl,
    store_completes .postIndexed hword indexOk_of_some_and rfl rfl,
    store_completes .offset hword nofun rfl rfl, store_completes .register hword nofun rfl rfl,
    store_completes .register_unshifted hhalf nofun rfl rfl, store_completes .scaled hhalf nofun rfl rfl,
    store_completes .offset hhalf nofun rfl rfl, store_completes .negative hhalf nofun rfl rfl,
    store_completes .preIndexed hhalf indexOk_of_some_and rfl rfl,
    store_completes .postIndexed hhalf indexOk_of_some_and rfl rfl,
    store_completes .offset hhalf nofun rfl rfl, store_completes .register hhalf nofun rfl rfl,
    List.forall_mem_nil _⟩

end Sys2Proof.Machine
end

section
/-! SUPPORT. Multiple loads (43_load_store R224 to R226): which register of a list stands where, what a multiple load
leaves when every check passes, and at which of its words it stops. -/

namespace Sys2Proof.Machine

/-! ## Register lists (R224) -/

/-- Among the numbers below `n` that pass `p`, one stands after all the lower ones. -/
theorem getElem?_filter_range {p : Nat → Bool} {n j : Nat} (hj : j < n) (hp : p j = true) :
    ((List.range n).filter p)[((List.range j).filter p).length]? = some j := by
  induction n with
  | zero => cases hj
  | succ n ih =>
    rw [List.range_succ, List.filter_append]
    obtain hlt | rfl := Nat.lt_succ_iff_lt_or_eq.1 hj
    · have hfound := ih hlt
      rw [List.getElem?_append_left (List.getElem?_eq_some_iff.1 hfound).1, hfound]
    · simp [hp]

section
variable {list : BitVec 13} {m : Bool} {j : Nat}

/-- The register of number `j` stands in its list at its rank. -/
theorem regList_getElem?_rank (hj : j < 13) (hbit : list.getLsbD j = true) :
    (regList list m)[rank list j]? = some (Reg.ofNum j) := by
  have hfound := getElem?_filter_range (p := fun k => list.getLsbD k) hj hbit
  have hmap : (((List.range 13).filter fun k => list.getLsbD k).map Reg.ofNum)[rank list j]? = some (Reg.ofNum j) := by
    rw [List.getElem?_map, rank, hfound, Option.map_some]
  rw [regList, List.getElem?_append_left (List.getElem?_eq_some_iff.1 hmap).1, hmap]

/-- LR stands after the others. -/
theorem regList_getElem?_lr : (regList list true)[rank list 13]? = some .lr := by
  have hlen : rank list 13 = (((List.range 13).filter fun k => list.getLsbD k).map Reg.ofNum).length := by
    rw [List.length_map, rank]
  rw [regList, hlen]
  exact List.getElem?_concat_length

/-- A list names the registers of its bits, and LR. -/
theorem mem_regList {r : Reg} : r ∈ regList list m ↔ list.getLsbD r.num = true ∨ m = true ∧ r = .lr := by
  have hlr : r ∈ (if m then [Reg.lr] else []) ↔ m = true ∧ r = .lr := by cases m <;> simp
  rw [regList, List.mem_append, hlr, List.mem_map]
  refine or_congr_left ⟨?_, fun hbit => ?_⟩
  · rintro ⟨k, hk, hr⟩
    obtain ⟨hlt, hbit⟩ := List.mem_filter.1 hk
    have hlt : k < 13 := List.mem_range.1 hlt
    rwa [← (Reg.ofNum_eq_iff (by omega)).1 hr]
  · have hlt : r.num < 13 := BitVec.lt_of_getLsbD hbit
    exact ⟨r.num, List.mem_filter.2 ⟨List.mem_range.2 hlt, hbit⟩, (Reg.ofNum_eq_iff (by omega)).2 rfl⟩

/-- Registers that a multiple load can write each once: SP and the PC are not among them. -/
def Loadable (regs : List Reg) : Prop := regs.Nodup ∧ .sp ∉ regs ∧ .pc ∉ regs

theorem regList_loadable : Loadable (regList list m) := by
  have hbound {k : Nat} (hk : k ∈ (List.range 13).filter fun k => list.getLsbD k) : k < 13 :=
    List.mem_range.1 (List.mem_filter.1 hk).1
  have hnodup : (((List.range 13).filter fun k => list.getLsbD k).map Reg.ofNum).Nodup := by
    refine List.Nodup.map_on (fun k hk l hl h => ?_) (List.nodup_range.filter _)
    have hk := hbound hk
    have hl := hbound hl
    rw [(Reg.ofNum_eq_iff (by omega)).1 h]
    exact ((Reg.ofNum_eq_iff (by omega)).1 rfl).symm
  refine ⟨?_, by simp [mem_regList, Reg.num], by simp [mem_regList, Reg.num]⟩
  cases m
  case false => rwa [regList, if_neg nofun, List.append_nil]
  case true =>
    refine List.nodup_append.2 ⟨hnodup, List.nodup_singleton _, fun r hr q hq => ?_⟩
    have hbit : r ∈ regList list false := List.mem_append_left _ hr
    rw [mem_regList] at hbit
    rintro rfl
    obtain rfl := List.mem_singleton.1 hq
    simp [Reg.num] at hbit

/-- The base of a writeback form that its list does not name. -/
theorem not_mem_regList_of_inList {rn : Reg} {p : Bool} (h : inList rn p m list = false) : rn ∉ regList list m := by
  rw [mem_regList]
  cases rn
  all_goals simp_all [inList, Reg.num]

end

section
variable {list : BitVec 8}

theorem getLsbD_setWidth_thirteen (list : BitVec 8) (k : Nat) : (list.setWidth 13).getLsbD k = list.getLsbD k := by
  rw [BitVec.getLsbD_setWidth, Bool.and_eq_right_iff_imp, decide_eq_true_iff]
  intro hbit
  have hlt : k < 8 := BitVec.lt_of_getLsbD hbit
  omega

theorem rank_setWidth_thirteen (list : BitVec 8) (j : Nat) : rank (list.setWidth 13) j = rank list j := by
  simp only [rank, getLsbD_setWidth_thirteen]

/-- A list of 8 bits names no register of a number from 8 on. -/
theorem rank_thirteen (list : BitVec 8) : rank list 13 = rank list 8 := by
  have hhigh : ([8, 9, 10, 11, 12].filter fun k => list.getLsbD k) = [] := by simp
  rw [rank, show List.range 13 = List.range 8 ++ [8, 9, 10, 11, 12] from rfl, List.filter_append, hhigh, List.append_nil,
    rank]

theorem lowRegList_length (list : BitVec 8) : (lowRegList list).length = rank list 8 := by
  rw [lowRegList, regList_length, rank_setWidth_thirteen, rank_thirteen, Bool.toNat_false, Nat.add_zero]

theorem mem_lowRegList {r : LowReg} : r.reg ∈ lowRegList list ↔ list.getLsbD r.num = true := by
  have hnum : r.reg.num = r.num := by cases r <;> rfl
  rw [lowRegList, mem_regList, getLsbD_setWidth_thirteen, hnum, or_iff_left nofun]

end

/-! ## The words of a multiple load (R224) -/

/-- The `k` words of memory from `a` on, the lowest first. -/
def wordsFrom (m : Memory) (a k : Nat) : List Word := (List.range k).map fun j => wordAt m (a + 4 * j)

/-- The first `k` words of a multiple load can be read. -/
theorem readWords_of_wordsOk {k : Nat} {a : Word} {s : State} (h : WordsOk k a s) :
    readWords k a.toNat s = .next (wordsFrom s.mem a.toNat k) := by
  obtain ⟨-, htop, hadm⟩ := h
  obtain ⟨vs, hvs⟩ := readWords_of_ok (fun j hj => by omega) hadm
  obtain ⟨hlen, hword⟩ := readWords_eq_next hvs
  have heq : vs = wordsFrom s.mem a.toNat k :=
    List.ext_getElem (by simp [wordsFrom, hlen]) fun j hj _ => by rw [hword j hj]; simp [wordsFrom]
  rw [hvs, heq]

theorem WordsOk.mono {j k : Nat} {a : Word} {s : State} (h : WordsOk k a s) (hjk : j ≤ k) : WordsOk j a s := by
  obtain ⟨halign, htop, hadm⟩ := h
  exact ⟨halign, by omega, fun l hl => hadm l (by omega)⟩

/-- The word at place `j` of a multiple load can be read. -/
theorem WordsOk.readAt {j k : Nat} {a : Word} {s : State} (h : WordsOk k a s) (hj : j < k) :
    readAt (a.toNat + 4 * j) 4 s = .next (wordAt s.mem (a.toNat + 4 * j)) := by
  obtain ⟨-, htop, hadm⟩ := h
  exact readAt_eq_next.2 ⟨by omega, hadm j hj, (Memory.readLe_four ..).symm⟩

/-- The load of `v` to the PC goes through: from the last place of a block, with bit[0] = 1, to an address in no
block (R226; 44_branch_and_conditional R244). -/
def PcLoadOk (v : Word) (s : State) : Prop :=
  s.itstate.length ≤ 1 ∧ v.getLsbD 0 = true ∧ ¬InItBlock s.mem s.cfg (v &&& 0xFFFFFFFE#32)

/-! ## What a multiple load leaves -/

theorem State.reg_setRegs_of_not_mem {l : List (Reg × Word)} {r : Reg} (s : State) (h : r ∉ l.map Prod.fst) :
    (s.setRegs l).reg r = s.reg r := by
  induction l generalizing s with
  | nil => rfl
  | cons q l ih =>
    have htail := ih (s.setReg q.1 q.2) (List.not_mem_of_not_mem_cons h)
    exact htail.trans (s.reg_setReg_ne q.1 r q.2 (List.ne_of_not_mem_cons h))

/-- Several registers, each written once. -/
theorem State.reg_setRegs_of_mem {l : List (Reg × Word)} {r : Reg} {v : Word} (s : State) (hnodup : (l.map Prod.fst).Nodup)
    (h : (r, v) ∈ l) (hpc : r ≠ .pc) : (s.setRegs l).reg r = held r v := by
  induction l generalizing s with
  | nil => cases h
  | cons q l ih =>
    obtain ⟨hq, hnodup⟩ := List.nodup_cons.1 hnodup
    obtain rfl | h := List.mem_cons.1 h
    · exact (State.reg_setRegs_of_not_mem _ hq).trans (s.reg_setReg_self r v hpc)
    · exact ih _ hnodup h

theorem Frame.setRegs {rs : List Reg} {s t : State} (h : Frame rs s t) {l : List (Reg × Word)}
    (hl : ∀ q ∈ l, q.1 ∈ rs) : Frame rs s (t.setRegs l) := by
  induction l generalizing t with
  | nil => exact h
  | cons q l ih =>
    exact ih (h.setReg (hl q List.mem_cons_self) q.2) fun q hq => hl q (List.mem_cons_of_mem _ hq)

/-- `s` after a multiple load of `regs` from `start` on that writes back `wb`, but for the PC and the IT state. -/
def State.loaded (s : State) (regs : List Reg) (start : Word) (wb : Option (Reg × Word)) : State :=
  (s.setRegs (regs.zip (wordsFrom s.mem start.toNat regs.length))).writeBack wb

/-- `t` is `s` after a multiple load of `n` bytes, of `regs` from `start` on and of the PC if `toPc`, that writes back
`wb`. -/
structure LoadsMultiple (n : Nat) (regs : List Reg) (toPc : Bool) (start : Word) (wb : Option (Reg × Word))
    (s t : State) : Prop where
  word : ∀ k r, regs[k]? = some r → (∀ q ∈ wb, q.1 ≠ r) → t.reg r = wordAt s.mem (start.toNat + 4 * k)
  base : ∀ q ∈ wb, q.1 ≠ .pc → t.reg q.1 = held q.1 q.2
  goesOn : if toPc then Jumped (wordAt s.mem (start.toNat + 4 * regs.length) &&& 0xFFFFFFFE#32) s t else Advanced n s t
  flags : t.flags = s.flags
  frame : Frame (wb.toList.map Prod.fst ++ regs) s t
  mem : SameMem s t

section
variable {i : Instr} {n : Nat} {regs : List Reg} {toPc : Bool} {start : Word} {wb : Option (Reg × Word)} {s : State}

theorem State.loaded_word (hregs : Loadable regs) {k : Nat} {r : Reg} (hr : regs[k]? = some r) (hwb : ∀ q ∈ wb, q.1 ≠ r) :
    (s.loaded regs start wb).reg r = wordAt s.mem (start.toNat + 4 * k) := by
  obtain ⟨hnodup, hsp, hpc⟩ := hregs
  obtain ⟨hk, rfl⟩ := List.getElem?_eq_some_iff.1 hr
  have hlen : (wordsFrom s.mem start.toNat regs.length).length = regs.length := by simp [wordsFrom]
  have hword : (regs[k], wordAt s.mem (start.toNat + 4 * k)) ∈ regs.zip (wordsFrom s.mem start.toNat regs.length) := by
    refine List.mem_iff_getElem.2 ⟨k, by simpa [hlen] using hk, ?_⟩
    simp [wordsFrom]
  have hmem : regs[k] ∈ regs := List.getElem_mem hk
  rw [State.loaded, State.reg_writeBack_of_ne _ hwb,
    State.reg_setRegs_of_mem s (by rwa [List.map_fst_zip hlen.ge]) hword (ne_of_mem_of_not_mem hmem hpc), held,
    if_neg (ne_of_mem_of_not_mem hmem hsp)]

/-- What is left of a multiple load by going on at `pc`. -/
theorem State.loaded_loadsMultiple {pc : Word} (hregs : Loadable regs)
    (hpc : pc = if toPc then wordAt s.mem (start.toNat + 4 * regs.length) &&& 0xFFFFFFFE#32
      else s.pc + BitVec.ofNat 32 n) :
    LoadsMultiple n regs toPc start wb s { s.loaded regs start wb with pc := pc, itstate := s.itstate.tail } := by
  have hregsFrame : Frame (wb.toList.map Prod.fst ++ regs) s
      (s.setRegs (regs.zip (wordsFrom s.mem start.toNat regs.length))) :=
    (Frame.refl s _).setRegs fun q hq => List.mem_append_right _ (List.of_mem_zip hq).1
  have hframe : Frame (wb.toList.map Prod.fst ++ regs) s (s.loaded regs start wb) :=
    hregsFrame.writeBack fun q hq => List.mem_append_left _ (fst_mem_of_mem_writeback hq)
  refine ⟨fun k r hr hwb => ?_, fun q hq hqpc => ?_, ?_, by simp [State.loaded], hframe.withPc _ _,
    fun b => by simp [State.loaded]⟩
  · have hrpc : r ≠ .pc := ne_of_mem_of_not_mem (List.mem_of_getElem? hr) hregs.2.2
    rw [State.reg_withPc _ _ _ hrpc, State.loaded_word hregs hr hwb]
  · rw [State.reg_withPc _ _ _ hqpc, State.loaded, State.reg_writeBack _ hq hqpc]
  · subst hpc
    cases toPc <;> exact ⟨rfl, rfl⟩

/-- The effect of a multiple load from an aligned address. -/
theorem loadMultiple_eq_readWords (hown : i.ownCond = .al) (hready : Ready i s)
    (hlast : toPc = true → s.itstate.length ≤ 1) (ha : start.toNat % 4 = 0) :
    loadMultiple i regs toPc start wb s = andThen (readWords regs.length start.toNat s) fun vs =>
      if toPc then
        andThen (readAt (start.toNat + 4 * regs.length) 4 s) fun v =>
          loadWritePc v s ((s.setRegs (regs.zip vs)).writeBack wb)
      else retire i ((s.setRegs (regs.zip vs)).writeBack wb) := by
  obtain ⟨hc, hw⟩ := hready
  rw [hown] at hc
  have halign : checkAlign false .multiword start s = .next () := checkAlign_eq_next.2 (.inl (decide_eq_true ha))
  rw [loadMultiple, conditionalAs_passed hc hw (lastOfBlock_holds_if hlast), halign, andThen_next]

/-- The effect of a multiple load once its words are read. -/
theorem loadMultiple_of_ready (hown : i.ownCond = .al) (hready : Ready i s)
    (hlast : toPc = true → s.itstate.length ≤ 1) (hok : WordsOk (regs.length + toPc.toNat) start s) :
    loadMultiple i regs toPc start wb s =
      if toPc then loadWritePc (wordAt s.mem (start.toNat + 4 * regs.length)) s (s.loaded regs start wb)
      else retire i (s.loaded regs start wb) := by
  rw [loadMultiple_eq_readWords hown hready hlast hok.1, readWords_of_wordsOk (hok.mono (Nat.le_add_right _ _)),
    andThen_next]
  cases toPc
  case false => rfl
  case true => rw [if_pos rfl, if_pos rfl, hok.readAt (Nat.lt_succ_self _), andThen_next, State.loaded]

theorem loadMultiple_completes (hregs : Loadable regs) (hown : i.ownCond = .al) (hn : width i = n) (hready : Ready i s)
    (hok : WordsOk (regs.length + toPc.toNat) start s) (hroom : toPc = false → Room n s)
    (hpc : toPc = true → PcLoadOk (wordAt s.mem (start.toNat + 4 * regs.length)) s) :
    ∃ t, loadMultiple i regs toPc start wb s = .next t ∧ LoadsMultiple n regs toPc start wb s t := by
  refine ⟨_, ?_, State.loaded_loadsMultiple hregs rfl⟩
  rw [loadMultiple_of_ready hown hready (fun h => (hpc h).1) hok]
  cases toPc
  case false =>
    rw [if_neg nofun, retire_of_room hn (hroom rfl) (by simp [State.loaded])]
    simp [State.advanced, State.loaded]
  case true =>
    obtain ⟨-, hbit, hblock⟩ := hpc rfl
    exact loadWritePc_eq_next.2 ⟨hbit, by simpa [State.loaded] using hblock, by simp [State.loaded]⟩

end

/-! ## Lists of a given width -/

section
variable {i : Instr} {s : State} {n : Nat} {w p m : Bool} {rn : Reg} {start v : Word}

/-- A multiple load of a 13-bit list that writes its base `rn` back as `v` if `w`. -/
theorem loadRegList_completes {list : BitVec 13}
    (hexec : exec i s = loadMultiple i (regList list m) p start (if w then some (rn, v) else none) s)
    (hown : i.ownCond = .al) (hn : width i = n) (hrn : i.wellFormed = true → w = true → rn ≠ .pc ∧ rn ∉ regList list m)
    (hready : Ready i s) (hok : WordsOk (rank list 13 + m.toNat + p.toNat) start s) (hroom : p = false → Room n s) :
    let pcWord := wordAt s.mem (start.toNat + 4 * (rank list 13 + m.toNat))
    (p = true → PcLoadOk pcWord s) →
      ∃ t, exec i s = .next t ∧
        (∀ j, j < 13 → list.getLsbD j = true → t.reg (Reg.ofNum j) = wordAt s.mem (start.toNat + 4 * rank list j)) ∧
        (m = true → t.reg .lr = wordAt s.mem (start.toNat + 4 * rank list 13)) ∧
        (w = true → t.reg rn = held rn v) ∧
        (if p then Jumped (pcWord &&& 0xFFFFFFFE#32) s t else Advanced n s t) ∧
        t.flags = s.flags ∧ Frame ((if w then [rn] else []) ++ regList list m) s t ∧ SameMem s t := by
  rw [← regList_length] at hok ⊢
  intro pcWord hpc
  have hrn := hrn hready.2
  obtain ⟨t, ht, hloads⟩ := loadMultiple_completes (wb := if w then some (rn, v) else none) regList_loadable hown hn
    hready hok hroom hpc
  have hword {k : Nat} {r : Reg} (hplace : (regList list m)[k]? = some r) :
      t.reg r = wordAt s.mem (start.toNat + 4 * k) := by
    refine hloads.word _ _ hplace fun q hq => ?_
    cases w
    case false => cases hq
    case true =>
      cases hq
      exact (ne_of_mem_of_not_mem (List.mem_of_getElem? hplace) (hrn rfl).2).symm
  refine ⟨t, hexec.trans ht, fun j hj hbit => hword (regList_getElem?_rank hj hbit), ?_, ?_, hloads.goesOn, hloads.flags,
    ?_, hloads.mem⟩
  · rintro rfl
    exact hword regList_getElem?_lr
  · rintro rfl
    exact hloads.base _ rfl (hrn rfl).1
  · cases w <;> exact hloads.frame

/-- A multiple load of an 8-bit list is one of the 13-bit list without its high registers. -/
theorem loadLowRegList_completes {list : BitVec 8}
    (hexec : exec i s = loadMultiple i (lowRegList list) p start (if w then some (rn, v) else none) s)
    (hown : i.ownCond = .al) (hn : width i = n) (hrn : w = true → rn ≠ .pc ∧ rn ∉ lowRegList list)
    (hready : Ready i s) (hok : WordsOk (rank list 8 + p.toNat) start s) (hroom : p = false → Room n s) :
    let pcWord := wordAt s.mem (start.toNat + 4 * rank list 8)
    (p = true → PcLoadOk pcWord s) →
      ∃ t, exec i s = .next t ∧
        (∀ j, j < 8 → list.getLsbD j = true → t.reg (Reg.ofNum j) = wordAt s.mem (start.toNat + 4 * rank list j)) ∧
        (w = true → t.reg rn = held rn v) ∧
        (if p then Jumped (pcWord &&& 0xFFFFFFFE#32) s t else Advanced n s t) ∧
        t.flags = s.flags ∧ Frame ((if w then [rn] else []) ++ lowRegList list) s t ∧ SameMem s t := by
  rw [← rank_thirteen, ← rank_setWidth_thirteen] at hok ⊢
  intro pcWord hpc
  obtain ⟨t, ht, hword, -, hrest⟩ := loadRegList_completes hexec hown hn (fun _ => hrn) hready hok hroom hpc
  refine ⟨t, ht, fun j hj hbit => ?_, hrest⟩
  rw [hword j (by omega) (by rwa [getLsbD_setWidth_thirteen]), rank_setWidth_thirteen]

end

/-! ## LDM and LDMDB (R224) -/

/-- LDM of low registers writes its base back unless it loads it. -/
theorem exec_ldm16_completes {s : State} {rn : LowReg} {list : BitVec 8} (hready : Ready (.ldm16 rn list) s)
    (hroom : Room 2 s) (hok : WordsOk (rank list 8) (s.reg rn.reg) s) :
    ∃ t, exec (.ldm16 rn list) s = .next t ∧
      (∀ j, j < 8 → list.getLsbD j = true →
        t.reg (Reg.ofNum j) = wordAt s.mem ((s.reg rn.reg).toNat + 4 * rank list j)) ∧
      (list.getLsbD rn.num = false → t.reg rn.reg = s.reg rn.reg + BitVec.ofNat 32 (4 * rank list 8)) ∧
      t.flags = s.flags ∧ Frame (rn.reg :: lowRegList list) s t ∧ SameMem s t ∧ Advanced 2 s t := by
  have hin : (lowRegList list).contains rn.reg = list.getLsbD rn.num := by
    rw [Bool.eq_iff_iff, List.contains_iff_mem, mem_lowRegList]
  have hexec : exec (.ldm16 rn list) s = loadMultiple (.ldm16 rn list) (lowRegList list) false (s.reg rn.reg)
      (if !list.getLsbD rn.num then some (rn.reg, s.reg rn.reg + BitVec.ofNat 32 (4 * rank list 8)) else none) s := by
    rw [← lowRegList_length, ← hin]
    refine congrArg (loadMultiple _ _ _ _ · s) ?_
    cases (lowRegList list).contains rn.reg <;> rfl
  obtain ⟨t, ht, hword, hbase, hadv, hflags, hframe, hmem⟩ := loadLowRegList_completes hexec rfl rfl
    (fun hw => ⟨rn.reg_ne_pc, fun h => by simp [mem_lowRegList.1 h] at hw⟩) hready hok (fun _ => hroom) nofun
  refine ⟨t, ht, hword, fun hbit => ?_, hflags, hframe.mono (by split <;> simp), hmem, hadv⟩
  have hsp : rn.reg ≠ .sp := by cases rn <;> nofun
  exact (hbase (by rw [hbit]; rfl)).trans (if_neg hsp)

/-- The base that LDM and LDMDB write back is not in the list (U6 (e)). -/
theorem writtenBase_not_mem {w p m : Bool} {rn : Reg} {list : BitVec 13} (hpc : rn.notPc = true)
    (hlist : (!(w && inList rn p m list)) = true) (hw : w = true) : rn ≠ .pc ∧ rn ∉ regList list m := by
  subst hw
  rw [Bool.true_and, Bool.not_eq_true'] at hlist
  exact ⟨of_decide_eq_true hpc, not_mem_regList_of_inList hlist⟩

/-- Settles O47: a multiple load of words that can be read completes (`loadMultiple_completes`), each register gets the word
at its rank (`regList_getElem?_rank`), and a base that is written back is not in the list. -/
theorem loadMultipleResults : Obligations.LoadMultipleResults := by
  refine fun s => ⟨fun rn list => exec_ldm16_completes, fun before w rn p m list => ?_⟩
  have hbytes := multipleBytes_regList list p m
  cases before
  case false =>
    refine loadRegList_completes ?_ rfl rfl fun hwf => ?_
    · rw [← hbytes]
      rfl
    · exact writtenBase_not_mem (and_and_elim_left (Bool.and_elim_left hwf)) (Bool.and_elim_right hwf)
  case true =>
    refine loadRegList_completes ?_ rfl rfl fun hwf => ?_
    · rw [← hbytes]
      rfl
    · exact writtenBase_not_mem (and_and_elim_left hwf) (Bool.and_elim_right hwf)

/-! ## POP (R225) -/

/-- A word-aligned value keeps all its bits in a stack pointer (10_state R21). -/
theorem stackAligned_of_aligned {v : Word} (h : v.toNat % 4 = 0) : v &&& 0xFFFFFFFC#32 = v := by
  have hlow : v &&& 3#32 = 0#32 := by
    have hmask := and_lowMask v 2 (by decide)
    rwa [show v.toNat % 2 ^ 2 = 0 from h] at hmask
  calc v &&& 0xFFFFFFFC#32 = (v &&& 3#32) ||| (v &&& 0xFFFFFFFC#32) := by rw [hlow, BitVec.zero_or]
    _ = v &&& 0xFFFFFFFF#32 := (BitVec.and_or_distrib_left).symm
    _ = v := BitVec.and_allOnes

/-- SP after POP of `k` words. -/
theorem held_sp_add (s : State) (k : Nat) :
    held .sp (s.sp + BitVec.ofNat 32 (4 * k)) = s.sp + BitVec.ofNat 32 (4 * k) := by
  have hsp := s.sp_aligned
  refine (if_pos rfl).trans (stackAligned_of_aligned ?_)
  rw [BitVec.toNat_add, BitVec.toNat_ofNat]
  omega

section
variable {s : State}

theorem exec_pop16_completes {p : Bool} {list : BitVec 8} (hready : Ready (.pop16 p list) s)
    (hok : WordsOk (rank list 8 + p.toNat) s.sp s) (hroom : p = false → Room 2 s) :
    let pcWord := wordAt s.mem (s.sp.toNat + 4 * rank list 8)
    (p = true → PcLoadOk pcWord s) →
      ∃ t, exec (.pop16 p list) s = .next t ∧
        (∀ j, j < 8 → list.getLsbD j = true → t.reg (Reg.ofNum j) = wordAt s.mem (s.sp.toNat + 4 * rank list j)) ∧
        t.reg .sp = s.sp + BitVec.ofNat 32 (4 * (rank list 8 + p.toNat)) ∧
        (if p then Jumped (pcWord &&& 0xFFFFFFFE#32) s t else Advanced 2 s t) ∧
        t.flags = s.flags ∧ Frame (.sp :: lowRegList list) s t ∧ SameMem s t := by
  intro pcWord hpc
  obtain ⟨t, hexec, hword, hsp, hrest⟩ := loadLowRegList_completes (w := true) (rn := .sp)
    (v := s.sp + BitVec.ofNat 32 (4 * (rank list 8 + p.toNat))) (i := .pop16 p list)
    (by rw [← lowRegList_length]; rfl) rfl rfl (fun _ => ⟨nofun, regList_loadable.2.1⟩) hready hok hroom hpc
  exact ⟨t, hexec, hword, (hsp rfl).trans (held_sp_add s _), hrest⟩

theorem exec_popW_completes {p m : Bool} {list : BitVec 13} (hready : Ready (.popW p m list) s)
    (hok : WordsOk (rank list 13 + m.toNat + p.toNat) s.sp s) (hroom : p = false → Room 4 s) :
    let pcWord := wordAt s.mem (s.sp.toNat + 4 * (rank list 13 + m.toNat))
    (p = true → PcLoadOk pcWord s) →
      ∃ t, exec (.popW p m list) s = .next t ∧
        (∀ j, j < 13 → list.getLsbD j = true → t.reg (Reg.ofNum j) = wordAt s.mem (s.sp.toNat + 4 * rank list j)) ∧
        (m = true → t.reg .lr = wordAt s.mem (s.sp.toNat + 4 * rank list 13)) ∧
        t.reg .sp = s.sp + BitVec.ofNat 32 (4 * (rank list 13 + m.toNat + p.toNat)) ∧
        (if p then Jumped (pcWord &&& 0xFFFFFFFE#32) s t else Advanced 4 s t) ∧
        t.flags = s.flags ∧ Frame (.sp :: regList list m) s t ∧ SameMem s t := by
  intro pcWord hpc
  obtain ⟨t, hexec, hregs, hlr, hsp, hrest⟩ := loadRegList_completes (w := true) (rn := .sp)
    (v := s.sp + BitVec.ofNat 32 (4 * (rank list 13 + m.toNat + p.toNat))) (i := .popW p m list)
    (by rw [← multipleBytes_regList]; rfl) rfl rfl (fun _ _ => ⟨nofun, regList_loadable.2.1⟩) hready hok hroom hpc
  exact ⟨t, hexec, hregs, hlr, (hsp rfl).trans (held_sp_add s _), hrest⟩

/-- POP of one register, or of the PC alone. -/
theorem exec_popWOne_completes {rt : Reg} (hready : Ready (.popWOne rt) s) (hok : WordsOk 1 s.sp s)
    (hroom : rt ≠ .pc → Room 4 s) :
    let pcWord := wordAt s.mem s.sp.toNat
    (rt = .pc → PcLoadOk pcWord s) →
      ∃ t, exec (.popWOne rt) s = .next t ∧ t.reg .sp = s.sp + 4#32 ∧
        (if rt = .pc then Jumped (pcWord &&& 0xFFFFFFFE#32) s t else Advanced 4 s t ∧ t.reg rt = pcWord) ∧
        t.flags = s.flags ∧ Frame [.sp, rt] s t ∧ SameMem s t := by
  intro pcWord hpc
  by_cases hrt : rt = .pc
  · subst hrt
    obtain ⟨t, hexec, ht⟩ := loadMultiple_completes (i := .popWOne .pc) (n := 4) (regs := []) (toPc := true)
      (wb := some (.sp, s.sp + 4#32)) ⟨.nil, nofun, nofun⟩ rfl rfl hready hok nofun fun _ => hpc rfl
    exact ⟨t, hexec, (ht.base _ rfl nofun).trans (held_sp_add s 1), ht.goesOn, ht.flags, ht.frame.mono (by simp), ht.mem⟩
  · have hsp : rt ≠ .sp := of_decide_eq_true hready.2
    obtain ⟨t, hexec, ht⟩ := loadMultiple_completes (i := .popWOne rt) (n := 4) (regs := [rt]) (toPc := false)
      (wb := some (.sp, s.sp + 4#32)) ⟨List.nodup_singleton rt, by simpa using hsp.symm, by simpa using Ne.symm hrt⟩
      rfl rfl hready hok (fun _ => hroom hrt) nofun
    have hword : t.reg rt = pcWord := ht.word 0 rt rfl (by rintro _ ⟨⟩; exact hsp.symm)
    refine ⟨t, (if_neg hrt).trans hexec, (ht.base _ rfl nofun).trans (held_sp_add s 1), ?_, ht.flags, ht.frame, ht.mem⟩
    rw [if_neg hrt]
    exact ⟨ht.goesOn, hword⟩

end

/-- Settles O48: each encoding is a multiple load from SP that completes (`loadMultiple_completes`), and SP stays
word-aligned (`held_sp_add`). -/
theorem popResults : Obligations.PopResults :=
  fun _ => ⟨fun _ _ => exec_pop16_completes, fun _ _ _ => exec_popW_completes, fun _ => exec_popWOne_completes⟩

/-! ## Where a multiple load stops (60_exceptions R275) -/

section
variable {i : Instr} {regs : List Reg} {toPc : Bool} {start : Word} {wb : Option (Reg × Word)} {s : State} {j k : Nat}

/-- With the words before it read, consecutive reads go on with the word at place `j`. -/
theorem readWords_eq_andThen {a : Nat} (hj : j < k)
    (hread : ∀ l, l < j → readAt (a + 4 * l) 4 s = .next (wordAt s.mem (a + 4 * l))) :
    ∃ rest, readWords k a s = andThen (readAt (a + 4 * j) 4 s) rest := by
  induction k generalizing a j with
  | zero => cases hj
  | succ k ih =>
    cases j with
    | zero => exact ⟨_, rfl⟩
    | succ j =>
      have hplace (l : Nat) : a + 4 + 4 * l = a + 4 * (l + 1) := by omega
      obtain ⟨rest, hrest⟩ := ih (a := a + 4) (Nat.lt_of_succ_lt_succ hj) fun l hl => by
        rw [hplace]
        exact hread (l + 1) (Nat.succ_lt_succ hl)
      refine ⟨fun v => andThen (rest v) fun vs => .next (wordAt s.mem a :: vs), ?_⟩
      rw [readWords, show readAt a 4 s = .next (wordAt s.mem a) from hread 0 (Nat.succ_pos j), andThen_next, hrest,
        andThen_assoc, hplace]

/-- With the words before it read, a multiple load goes on with the checks of the word at place `j`, the word for the PC
included. -/
theorem loadMultiple_eq_andThen (hown : i.ownCond = .al) (hready : Ready i s) (hlast : toPc = true → s.itstate.length ≤ 1)
    (hj : j < regs.length + toPc.toNat) (hok : WordsOk j start s) :
    ∃ rest, loadMultiple i regs toPc start wb s = andThen (accessCheck .read (start.toNat + 4 * j) 4 s) rest := by
  rw [loadMultiple_eq_readWords hown hready hlast hok.1]
  by_cases hlt : j < regs.length
  · obtain ⟨rest, hrest⟩ := readWords_eq_andThen hlt fun l hl => hok.readAt hl
    rw [hrest, readAt_eq, andThen_assoc, andThen_assoc]
    exact ⟨_, rfl⟩
  · obtain ⟨rfl, rfl⟩ : toPc = true ∧ j = regs.length := by
      cases toPc
      case false => exact absurd hj hlt
      case true => exact ⟨rfl, Nat.le_antisymm (Nat.le_of_lt_succ hj) (Nat.le_of_not_lt hlt)⟩
    rw [readWords_of_wordsOk hok, andThen_next, if_pos rfl, readAt_eq, andThen_assoc]
    exact ⟨_, rfl⟩

end

/-- A multiple load is `loadMultiple` from the address and of the words that `Instr.multiple` gives, by instruction. -/
theorem exec_of_multiple {i : Instr} {s : State} {a : Word} {k : Nat} (h : i.multiple s = some (a, k)) :
    i.ownCond = .al ∧ ∃ regs wb, exec i s = loadMultiple i regs i.loadsPc a wb s ∧ k = regs.length + i.loadsPc.toNat := by
  cases i
  case pop16 | ldm16 | ldm32 | ldmdb | popW =>
    cases h
    exact ⟨rfl, _, _, rfl, rfl⟩
  case popWOne rt =>
    cases h
    refine ⟨rfl, ?_⟩
    by_cases hrt : rt = .pc
    · subst hrt
      exact ⟨[], _, rfl, rfl⟩
    · have hpc : (Instr.popWOne rt).loadsPc = false := decide_eq_false hrt
      rw [hpc]
      exact ⟨[rt], _, if_neg hrt, rfl⟩
  -- the others are no multiple loads
  all_goals cases h

/-- Settles O51: with the words before it read, a multiple load makes the checks of its next word (`loadMultiple_eq_andThen`),
and with every word read it writes the PC (`loadMultiple_of_ready`). -/
theorem multipleLoadStops : Obligations.MultipleLoadStops := by
  intro i s a k hmult hready hlast
  obtain ⟨hown, regs, wb, hexec, rfl⟩ := exec_of_multiple hmult
  rw [hexec]
  refine ⟨fun j hj hok htop => ?_, fun j hj hok hin hadm => ?_, fun hok hpc hbit => ?_⟩
  · obtain ⟨rest, hrest⟩ := loadMultiple_eq_andThen (wb := wb) hown hready hlast hj hok
    rw [hrest, accessCheck_of_top htop, andThen_refused]
  · obtain ⟨rest, hrest⟩ := loadMultiple_eq_andThen (wb := wb) hown hready hlast hj hok
    rw [hrest, accessCheck_of_unadmitted (acc := .read) hin nofun hadm, andThen_fault]
  · rw [loadMultiple_of_ready hown hready hlast hok, if_pos hpc]
    rw [hpc] at hbit
    exact loadWritePc_eq_fault.2 ⟨hbit, rfl⟩

end Sys2Proof.Machine
end

section
/-! SUPPORT. Conditions (44_branch_and_conditional R241, R242, R245): the flag tests, which of them an instruction is tested on,
what they say of two words compared, and what a failed one leaves to do. -/

namespace Sys2Proof

open Machine

/-- Only B<cond> carries a condition of its own. -/
theorem Instr.ownCond_eq_al {i : Instr} (h16 : ∀ c imm8, i ≠ .bCond16 c imm8) (h32 : ∀ c imm20, i ≠ .bCond32 c imm20) :
    i.ownCond = .al := by
  cases i
  case bCond16 c imm8 => exact absurd rfl (h16 c imm8)
  case bCond32 c imm20 => exact absurd rfl (h32 c imm20)
  all_goals rfl

/-- The inverse of a condition holds where the condition does not (R241, R244). -/
theorem Cond.holds_inverse {c : Cond} (h : c ≠ .al) (f : Flags) : c.inverse.holds f = !c.holds f := by
  cases c
  case al => exact absurd rfl h
  all_goals simp [Cond.inverse, Cond.holds, bne]

end Sys2Proof

namespace Sys2Proof.Machine

section
variable {s : State} {own c : Cond} {rest : List Cond}

theorem conditionPassed_of_block (h : s.itstate = c :: rest) : conditionPassed own s = c.holds s.flags := by
  rw [conditionPassed, currentCond, h]

theorem conditionPassed_of_outside (h : s.itstate = []) : conditionPassed own s = own.holds s.flags := by
  rw [conditionPassed, currentCond, h]

end

/-- Settles O31: the tests are read off the flags, and the condition tested off the IT state. -/
theorem conditionTests : Obligations.ConditionTests := by
  refine ⟨fun f => ?_, fun i s c rest => conditionPassed_of_block, fun s c imm8 imm20 hout => ?_,
    fun i s hout h16 h32 => ?_⟩
  · simp [Cond.holds]
  · exact ⟨conditionPassed_of_outside hout, conditionPassed_of_outside hout⟩
  · rw [Instr.ownCond_eq_al h16 h32]
    exact conditionPassed_al hout

/-- Settles O18: the frame that every instruction with a condition runs in ends in the advance. -/
theorem failedConditionDoesNothing : Obligations.FailedConditionDoesNothing := by
  intro i s htakes hfailed hroom
  obtain ⟨effect, hexec⟩ := exec_runsConditionally htakes s
  rw [hexec, conditionalAs_failed hfailed]
  exact retire_eq_next.2 ⟨hroom, rfl⟩

/-! ## After a comparison -/

section
variable (a b : Word)

/-- N and V of a difference agree where the first operand is not the smaller one as a signed number: V says that the sign N of
the result is not that of the exact difference. -/
theorem sub_negative_eq_overflow_iff : negative (sub a b).value = (sub a b).overflow ↔ b.toInt ≤ a.toInt := by
  have hdiff := wrapped_cases (sub_exact a b) (exactDifference_range a b)
  have ha := toInt_range a
  have hb := toInt_range b
  rw [Bool.eq_iff_iff, negative, bit31_eq_sign, decide_eq_true_iff, sub_overflow_iff]
  omega

end

/-- Settles O32: Z, C and the agreement of N and V say how the operands compare, and the flag tests say the rest. -/
theorem conditionsAfterCompare : Obligations.ConditionsAfterCompare := by
  refine ⟨fun a b => ?_, fun c f h => Cond.holds_inverse h f, fun _ => rfl⟩
  intro f
  have hz : f.z = true ↔ a = b := by
    rw [show f = differenceFlags a b from arith_sub a b]
    exact decide_eq_true_iff
  have hc : f.c = true ↔ b.toNat ≤ a.toNat := sub_carry_iff a b
  have hnv : f.n = f.v ↔ b.toInt ≤ a.toInt := sub_negative_eq_overflow_iff a b
  have hnat : a = b ↔ a.toNat = b.toNat := BitVec.toNat_inj.symm
  have hint : a = b ↔ a.toInt = b.toInt := BitVec.toInt_inj.symm
  obtain ⟨heq, hne, hcs, hcc, -, -, -, -, hhi, hls, hge, hlt, hgt, hle, -⟩ := conditionTests.1 f
  simp only [← Bool.not_eq_true, ne_eq, hz, hc, hnv] at heq hne hcs hcc hhi hls hge hlt hgt hle
  refine ⟨heq, hcs, ?_, hge, ?_, hne, hcc.trans not_le, ?_, hlt.trans not_le, ?_⟩
  · rw [hhi, hnat]
    omega
  · rw [hgt, hint]
    omega
  · rw [hls, hnat]
    omega
  · rw [hle, hint]
    omega

end Sys2Proof.Machine
end

section
/-! SUPPORT. Branches (44_branch_and_conditional R244, R247 to R254): each is, in its frame, a write of the PC after at most a
write of LR. It completes outside the blocks of the program and is refused into them, and nothing else is refused so. -/

namespace Sys2Proof.Machine

/-! ## Branch offsets (30_encoding R103) -/

/-- A zero below a number leaves its sign. -/
theorem msb_append_zero {w : Nat} (imm : BitVec w) : (imm ++ 0#1 : BitVec (w + 1)).msb = imm.msb := by
  rw [BitVec.msb_append]
  split
  next hw =>
    subst hw
    rw [BitVec.of_length_zero (x := imm)]
    rfl
  next => rfl

/-- Extending the sign and putting the zero below commute. -/
theorem branchOffset_eq_signExtend {w : Nat} (imm : BitVec w) :
    branchOffset imm = (imm ++ 0#1 : BitVec (w + 1)).signExtend 32 := by
  apply BitVec.eq_of_getLsbD_eq
  intro k hk
  rw [branchOffset, BitVec.getLsbD_shiftLeft, BitVec.getLsbD_signExtend, BitVec.getLsbD_signExtend,
    BitVec.getLsbD_append, msb_append_zero]
  cases k with
  | zero => simp
  | succ k => simp [hk, Nat.lt_of_succ_lt hk]

theorem forwardOffset_eq_mul (imm6 : BitVec 6) : forwardOffset imm6 = 2#32 * imm6.setWidth 32 := by
  rw [forwardOffset, BitVec.shiftLeft_eq_mul_twoPow, BitVec.mul_comm]
  rfl

/-! ## The write of the PC -/

/-- `s` with `link` in LR, if the branch links. -/
def State.linkIf (s : State) (linked : Bool) (link : Word) : State := if linked then s.setReg .lr link else s

section
variable {s : State} {linked : Bool} {link target v : Word}

@[simp] theorem State.linkIf_mem : (s.linkIf linked link).mem = s.mem := by cases linked <;> rfl

@[simp] theorem State.linkIf_cfg : (s.linkIf linked link).cfg = s.cfg := by cases linked <;> rfl

/-- `t` is `s` after a branch to `target` that leaves `link` in LR if it links. -/
def Branched (target : Word) (linked : Bool) (link : Word) (s t : State) : Prop :=
  Jumped target s t ∧ (linked = true → t.reg .lr = link) ∧ t.flags = s.flags ∧
    Frame (if linked then [.lr] else []) s t ∧ SameMem s t

theorem branchTo_linkIf_next (hblock : ¬InItBlock s.mem s.cfg target) :
    ∃ t, branchTo target (s.linkIf linked link) = .next t ∧ Branched target linked link s t := by
  refine ⟨_, branchTo_eq_next.2 ⟨by simpa using hblock, rfl⟩, ?_⟩
  cases linked
  case false => exact ⟨⟨rfl, rfl⟩, nofun, rfl, (Frame.refl s _).withPc _ _, fun _ => rfl⟩
  case true =>
    exact ⟨⟨rfl, rfl⟩, fun _ => rfl, rfl, ((Frame.refl s _).setReg List.mem_cons_self link).withPc _ _, fun _ => rfl⟩

theorem branchTo_linkIf_refused (hblock : InItBlock s.mem s.cfg target) :
    branchTo target (s.linkIf linked link) = .refused (.branchIntoBlock target) :=
  branchTo_eq_refused.2 ⟨by simpa using hblock, rfl⟩

/-- Bit[0] = 1 in what is written to the PC is dropped (R254). -/
theorem loadWritePc_of_bit (u : State) (h : v.getLsbD 0 = true) : loadWritePc v s u = branchTo (v &&& 0xFFFFFFFE#32) u :=
  if_pos h

end

/-! ## B, B<cond>, BL, BX and BLX -/

theorem outsideBlock_holds {s : State} (h : s.itstate.length ≤ 0) : Placement.outsideBlock.holds s = true :=
  List.isEmpty_iff.2 (List.length_eq_zero_iff.1 (Nat.le_zero.1 h))

theorem lastOfBlock_holds {s : State} (h : s.itstate.length ≤ 1) : Placement.lastOfBlock.holds s = true := decide_eq_true h

section
variable {i : Instr} {s : State} {p : Placement} {linked : Bool} {link : Word}

section
variable {n w : Nat} {imm : BitVec w}
  (hexec : exec i s =
    conditionalAs i.ownCond p i s (branchTo (pcBranch s.pc + branchOffset imm) (s.linkIf linked link)))
  (hplace : s.itstate.length ≤ n → p.holds s = true) (hready : Ready i s) (hn : s.itstate.length ≤ n)
include hexec hplace hready hn

theorem exec_labelBranch :
    exec i s = branchTo (s.pc + 4#32 + (imm ++ 0#1 : BitVec (w + 1)).signExtend 32) (s.linkIf linked link) := by
  rw [hexec, conditionalAs_passed hready.1 hready.2 (hplace hn), branchOffset_eq_signExtend]
  rfl

theorem exec_labelBranch_next
    (hblock : ¬InItBlock s.mem s.cfg (s.pc + 4#32 + (imm ++ 0#1 : BitVec (w + 1)).signExtend 32)) :
    ∃ t, exec i s = .next t ∧
      Branched (s.pc + 4#32 + (imm ++ 0#1 : BitVec (w + 1)).signExtend 32) linked link s t := by
  rw [exec_labelBranch hexec hplace hready hn]
  exact branchTo_linkIf_next hblock

theorem exec_labelBranch_refused
    (hblock : InItBlock s.mem s.cfg (s.pc + 4#32 + (imm ++ 0#1 : BitVec (w + 1)).signExtend 32)) :
    exec i s = .refused (.branchIntoBlock (s.pc + 4#32 + (imm ++ 0#1 : BitVec (w + 1)).signExtend 32)) := by
  rw [exec_labelBranch hexec hplace hready hn]
  exact branchTo_linkIf_refused hblock

end

section
variable {v : Word}
  (hexec : exec i s = conditionalAs i.ownCond .lastOfBlock i s (loadWritePc v s (s.linkIf linked link)))
  (hready : Ready i s) (hlast : s.itstate.length ≤ 1)
include hexec hready hlast

theorem exec_registerBranch : exec i s = loadWritePc v s (s.linkIf linked link) :=
  hexec.trans (conditionalAs_passed hready.1 hready.2 (lastOfBlock_holds hlast))

theorem exec_registerBranch_next (hbit : v.getLsbD 0 = true) (hblock : ¬InItBlock s.mem s.cfg (v &&& 0xFFFFFFFE#32)) :
    ∃ t, exec i s = .next t ∧ Branched (v &&& 0xFFFFFFFE#32) linked link s t := by
  rw [exec_registerBranch hexec hready hlast, loadWritePc_of_bit _ hbit]
  exact branchTo_linkIf_next hblock

theorem exec_registerBranch_refused (hbit : v.getLsbD 0 = true) (hblock : InItBlock s.mem s.cfg (v &&& 0xFFFFFFFE#32)) :
    exec i s = .refused (.branchIntoBlock (v &&& 0xFFFFFFFE#32)) := by
  rw [exec_registerBranch hexec hready hlast, loadWritePc_of_bit _ hbit]
  exact branchTo_linkIf_refused hblock

theorem exec_registerBranch_invstate (hbit : v.getLsbD 0 = false) : exec i s = .fault (.usageFault .invstate s.pc) :=
  (exec_registerBranch hexec hready hlast).trans (loadWritePc_eq_fault.2 ⟨hbit, rfl⟩)

end
end

section
variable (rm : Reg) (s : State)

theorem exec_bx :
    exec (.bx rm) s = conditionalAs (Instr.bx rm).ownCond .lastOfBlock (.bx rm) s
      (loadWritePc (s.reg rm) s (s.linkIf false ((s.pc + 2#32) ||| 1#32))) := rfl

/-- BLX reads its register before it links. -/
theorem exec_blx :
    exec (.blx rm) s = conditionalAs (Instr.blx rm).ownCond .lastOfBlock (.blx rm) s
      (loadWritePc (s.reg rm) s (s.linkIf true ((s.pc + 2#32) ||| 1#32))) := rfl

end

/-- Settles O54: each branch to a label completes (`exec_labelBranch_next`) with the place and the link of its encoding. -/
theorem branchResults : Obligations.BranchResults := by
  intro c imm8 imm11 imm20 imm24 s
  repeat rw [List.forall_mem_cons]
  exact ⟨exec_labelBranch_next rfl outsideBlock_holds,
    exec_labelBranch_next rfl outsideBlock_holds,
    exec_labelBranch_next rfl lastOfBlock_holds,
    exec_labelBranch_next rfl lastOfBlock_holds,
    exec_labelBranch_next rfl lastOfBlock_holds, List.forall_mem_nil _⟩

/-- Settles O56: each register branch completes, or faults, as bit[0] of the register says; the register is read in the state
before the link. -/
theorem registerBranchResults : Obligations.RegisterBranchResults := by
  intro rm s hlast
  have hbx := exec_bx rm s
  have hblx := exec_blx rm s
  repeat rw [List.forall_mem_cons]
  exact ⟨fun hready => ⟨exec_registerBranch_next hbx hready hlast, exec_registerBranch_invstate hbx hready hlast⟩,
    fun hready => ⟨exec_registerBranch_next hblx hready hlast, exec_registerBranch_invstate hblx hready hlast⟩,
    List.forall_mem_nil _⟩

/-! ## CBZ and CBNZ -/

section
variable {i : Instr} {c : Prop} [Decidable c] {s : State} {imm6 : BitVec 6}
  (hexec : exec i s = unconditional i s (if c then branchTo (pcBranch s.pc + forwardOffset imm6) s else retire i s))
  (hwf : i.wellFormed = true) (hout : s.itstate = [])
include hexec hwf hout

theorem exec_compareBranch :
    exec i s = if c then branchTo (s.pc + 4#32 + 2#32 * imm6.setWidth 32) s else retire i s := by
  rw [hexec, unconditional_passed hwf hout, forwardOffset_eq_mul]
  rfl

theorem exec_compareBranch_next (hn : width i = 2) (hroom : decide c = false → Room 2 s)
    (hblock : decide c = true → ¬InItBlock s.mem s.cfg (s.pc + 4#32 + 2#32 * imm6.setWidth 32)) :
    ∃ t, exec i s = .next t ∧
      t.pc = (if decide c then s.pc + 4#32 + 2#32 * imm6.setWidth 32 else s.pc + 2#32) ∧ t.itstate = [] ∧
      t.flags = s.flags ∧ Frame [] s t ∧ SameMem s t := by
  rw [exec_compareBranch hexec hwf hout]
  by_cases hc : c
  · have htrue : decide c = true := decide_eq_true hc
    rw [if_pos hc, if_pos htrue]
    exact ⟨_, branchTo_eq_next.2 ⟨hblock htrue, rfl⟩, rfl, congrArg List.tail hout, rfl, (Frame.refl s _).withPc _ _,
      fun _ => rfl⟩
  · have hfalse : decide c = false := decide_eq_false hc
    rw [if_neg hc, hfalse]
    exact ⟨_, retire_of_room hn (hroom hfalse) rfl, rfl, congrArg List.tail hout, rfl, (Frame.refl s _).withPc _ _,
      fun _ => rfl⟩

theorem exec_compareBranch_refused (hc : c)
    (hblock : InItBlock s.mem s.cfg (s.pc + 4#32 + 2#32 * imm6.setWidth 32)) :
    exec i s = .refused (.branchIntoBlock (s.pc + 4#32 + 2#32 * imm6.setWidth 32)) := by
  rw [exec_compareBranch hexec hwf hout, if_pos hc]
  exact branchTo_eq_refused.2 ⟨hblock, rfl⟩

end

/-- Settles O55: CBZ and CBNZ differ in their test alone. -/
theorem compareBranchResults : Obligations.CompareBranchResults := by
  intro rn imm6 s target hout
  simp only [List.forall_mem_cons]
  exact ⟨exec_compareBranch_next rfl rfl hout rfl, exec_compareBranch_next rfl rfl hout rfl, List.forall_mem_nil _⟩

/-! ## Loads of the PC into a block -/

/-- A single load of the PC is `loadWord` from the address that `Instr.accesses` gives. -/
theorem exec_of_loadsPc {i : Instr} {s : State} {acc : Access} {a : Word} {n : Nat} (h : i.loadsPc = true)
    (hacc : i.accesses s = some (acc, a, n)) :
    i.ownCond = .al ∧ ∃ form, exec i s = loadWord i .pc form s ∧ form.address s = a := by
  cases i
  case ldrImm12 | ldrNeg8 | ldrPre | ldrPost | ldrt | ldrReg32 | ldrLit32 =>
    cases hacc
    obtain rfl := of_decide_eq_true h
    exact ⟨rfl, _, rfl, rfl⟩
  case pop16 | ldm32 | ldmdb | popW | popWOne => cases hacc
  -- the others do not load the PC
  all_goals cases h

/-- LDR of the PC that passes its checks. -/
theorem exec_loadPc_refused {i : Instr} {s : State} {acc : Access} {a : Word} {n : Nat} (h : i.loadsPc = true)
    (hacc : i.accesses s = some (acc, a, n)) (hready : Ready i s) (hlast : s.itstate.length ≤ 1) (ha : a.toNat % 4 = 0)
    (hload : LoadOk 4 a s) (hbit : (wordAt s.mem a.toNat).getLsbD 0 = true)
    (hblock : InItBlock s.mem s.cfg (wordAt s.mem a.toNat &&& 0xFFFFFFFE#32)) :
    exec i s = .refused (.branchIntoBlock (wordAt s.mem a.toNat &&& 0xFFFFFFFE#32)) := by
  obtain ⟨hown, form, hexec, haddr⟩ := exec_of_loadsPc h hacc
  rw [hexec, loadWord_of_ready ⟨haddr, rfl⟩ hown hready (fun _ => ⟨hlast, ha⟩) (.inl ha) hload, if_pos rfl]
  exact loadWritePc_eq_refused.2 ⟨hbit, by simpa using hblock, rfl⟩

/-- LDM, LDMDB or POP with the PC in its list, every word of it read. -/
theorem exec_multiple_refused {i : Instr} {s : State} {a : Word} {k : Nat} (hmult : i.multiple s = some (a, k))
    (hready : Ready i s) (hpc : i.loadsPc = true) (hlast : s.itstate.length ≤ 1) (hok : WordsOk k a s)
    (hbit : (wordAt s.mem (a.toNat + 4 * (k - 1))).getLsbD 0 = true)
    (hblock : InItBlock s.mem s.cfg (wordAt s.mem (a.toNat + 4 * (k - 1)) &&& 0xFFFFFFFE#32)) :
    exec i s = .refused (.branchIntoBlock (wordAt s.mem (a.toNat + 4 * (k - 1)) &&& 0xFFFFFFFE#32)) := by
  obtain ⟨hown, regs, wb, hexec, rfl⟩ := exec_of_multiple hmult
  rw [hexec, loadMultiple_of_ready hown hready (fun _ => hlast) hok, if_pos hpc]
  rw [hpc] at hbit hblock ⊢
  exact loadWritePc_eq_refused.2 ⟨hbit, by simpa [State.loaded] using hblock, rfl⟩

/-! ## Nothing else is refused so -/

/-- Where `x` is refused as a branch into a block, its target is one that `P` holds of. -/
def IntoBlockOnly {α : Type} (P : Word → Prop) (x : Attempt α) : Prop :=
  ∀ target, x = .refused (.branchIntoBlock target) → P target

section
variable {α β : Type} {P : Word → Prop}

theorem IntoBlockOnly.next (a : α) : IntoBlockOnly P (.next a) := fun _ h => by cases h

theorem IntoBlockOnly.fault (f : Fault) : IntoBlockOnly P (.fault f : Attempt α) := fun _ h => by cases h

theorem IntoBlockOnly.refused {r : Refusal} (h : ∀ target, r ≠ .branchIntoBlock target) :
    IntoBlockOnly P (.refused r : Attempt α) := by
  rintro target ⟨⟩
  exact absurd rfl (h target)

theorem IntoBlockOnly.andThen {x : Attempt α} {f : α → Attempt β} (hx : IntoBlockOnly P x)
    (hf : ∀ a, IntoBlockOnly P (f a)) : IntoBlockOnly P (andThen x f) := by
  intro target h
  obtain h | ⟨a, -, h⟩ := andThen_eq_refused.1 h
  · exact hx target h
  · exact hf a target h

theorem IntoBlockOnly.ite {c : Prop} [Decidable c] {x y : Attempt α} (hx : c → IntoBlockOnly P x)
    (hy : IntoBlockOnly P y) : IntoBlockOnly P (if c then x else y) := by
  split
  next hc => exact hx hc
  next => exact hy

theorem checkAlign_intoBlockOnly (ok : Bool) (cls : AccessClass) (a : Word) (s : State) :
    IntoBlockOnly P (checkAlign ok cls a s) := fun _ h => absurd h (checkAlign_ne_refused _ _ _ _ _)

theorem readAt_intoBlockOnly (a n : Nat) (s : State) : IntoBlockOnly P (readAt a n s) :=
  .ite (fun _ => .refused nofun) (.ite (fun _ => .fault _) (.next _))

theorem writeAt_intoBlockOnly (a n : Nat) (v : Word) (s : State) : IntoBlockOnly P (writeAt a n v s) :=
  .ite (fun _ => .refused nofun) (.ite (fun _ => .refused nofun) (.ite (fun _ => .fault _) (.next _)))

theorem readWords_intoBlockOnly (k a : Nat) (s : State) : IntoBlockOnly P (readWords k a s) := by
  induction k generalizing a with
  | zero => exact .next _
  | succ k ih => exact .andThen (readAt_intoBlockOnly _ _ _) fun _ => .andThen (ih _) fun _ => .next _

theorem retire_intoBlockOnly (i : Instr) (s : State) : IntoBlockOnly P (retire i s) :=
  .ite (fun _ => .next _) (.refused nofun)

theorem conditionalAs_intoBlockOnly (own : Cond) (p : Placement) (i : Instr) (s : State) {effect : Result}
    (h : IntoBlockOnly P effect) : IntoBlockOnly P (conditionalAs own p i s effect) :=
  .ite (fun _ => retire_intoBlockOnly _ _) (.ite (fun _ => .refused nofun) (.ite (fun _ => .refused nofun) h))

theorem unconditional_intoBlockOnly (i : Instr) (s : State) {effect : Result} (h : IntoBlockOnly P effect) :
    IntoBlockOnly P (unconditional i s effect) :=
  .ite (fun _ => .refused nofun) (.ite (fun _ => .refused nofun) h)

end

/-- `target` is where `i` may be refused to go from `s`: `i` may write the PC, and `target` is in a block of the program. -/
def RefusedTarget (i : Instr) (s : State) (target : Word) : Prop := i.writesPc = true ∧ InItBlock s.mem s.cfg target

section
variable {i : Instr} {s u : State}

theorem branchTo_intoBlockOnly (target : Word) (hw : i.writesPc = true) (hmem : u.mem = s.mem) (hcfg : u.cfg = s.cfg) :
    IntoBlockOnly (RefusedTarget i s) (branchTo target u) := by
  intro _ h
  obtain ⟨hblock, ⟨⟩⟩ := branchTo_eq_refused.1 h
  exact ⟨hw, hmem ▸ hcfg ▸ hblock⟩

theorem loadWritePc_intoBlockOnly (v : Word) (hw : i.writesPc = true) (hmem : u.mem = s.mem) (hcfg : u.cfg = s.cfg) :
    IntoBlockOnly (RefusedTarget i s) (loadWritePc v s u) :=
  .ite (fun _ => branchTo_intoBlockOnly _ hw hmem hcfg) (.fault _)

theorem compareBranch_intoBlockOnly (c : Prop) [Decidable c] (target : Word) (hw : i.writesPc = true) :
    IntoBlockOnly (RefusedTarget i s) (unconditional i s (if c then branchTo target s else retire i s)) :=
  unconditional_intoBlockOnly _ _ (.ite (fun _ => branchTo_intoBlockOnly _ hw rfl rfl) (retire_intoBlockOnly _ _))

theorem loadWord_intoBlockOnly {rt : Reg} (form : AddrForm) (hw : rt = .pc → i.writesPc = true) :
    IntoBlockOnly (RefusedTarget i s) (loadWord i rt form s) :=
  conditionalAs_intoBlockOnly _ _ _ _ <|
    .andThen (checkAlign_intoBlockOnly _ _ _ _) fun _ =>
      .ite (fun _ => .refused nofun) <|
        .andThen (readAt_intoBlockOnly _ _ _) fun _ =>
          .ite (fun hpc => loadWritePc_intoBlockOnly _ (hw hpc) (by simp) (by simp)) (retire_intoBlockOnly _ _)

theorem loadHalf_intoBlockOnly (rt : Reg) (form : AddrForm) (ext : Extend) :
    IntoBlockOnly (RefusedTarget i s) (loadHalf i rt form ext s) :=
  conditionalAs_intoBlockOnly _ _ _ _ <|
    .andThen (.andThen (checkAlign_intoBlockOnly _ _ _ _) fun _ => readAt_intoBlockOnly _ _ _)
      fun _ => retire_intoBlockOnly _ _

theorem store_intoBlockOnly (rt : Reg) (form : AddrForm) (cls : AccessClass) (n : Nat) :
    IntoBlockOnly (RefusedTarget i s) (store i rt form cls n s) :=
  conditionalAs_intoBlockOnly _ _ _ _ <|
    .andThen (.andThen (checkAlign_intoBlockOnly _ _ _ _) fun _ => writeAt_intoBlockOnly _ _ _ _)
      fun _ => retire_intoBlockOnly _ _

theorem loadMultiple_intoBlockOnly (regs : List Reg) {toPc : Bool} (start : Word) (wb : Option (Reg × Word))
    (hw : toPc = true → i.writesPc = true) : IntoBlockOnly (RefusedTarget i s) (loadMultiple i regs toPc start wb s) :=
  conditionalAs_intoBlockOnly _ _ _ _ <|
    .andThen (checkAlign_intoBlockOnly _ _ _ _) fun _ =>
      .andThen (readWords_intoBlockOnly _ _ _) fun _ =>
        .ite (fun hpc => .andThen (readAt_intoBlockOnly _ _ _) fun _ =>
          loadWritePc_intoBlockOnly _ (hw hpc) (by simp) (by simp)) (retire_intoBlockOnly _ _)

end

/-- A branch into a block is refused of the instructions that may write the PC alone, by family of instructions. -/
theorem exec_intoBlockOnly (i : Instr) (s : State) : IntoBlockOnly (RefusedTarget i s) (exec i s) := by
  cases i
  case bCond16 | b16 | bCond32 | b32 | bl =>
    exact conditionalAs_intoBlockOnly _ _ _ _ (branchTo_intoBlockOnly _ rfl rfl rfl)
  case bx | blx => exact conditionalAs_intoBlockOnly _ _ _ _ (loadWritePc_intoBlockOnly _ rfl rfl rfl)
  case cbz rn imm6 => exact compareBranch_intoBlockOnly (s.reg rn.reg = 0#32) _ rfl
  case cbnz rn imm6 => exact compareBranch_intoBlockOnly (s.reg rn.reg ≠ 0#32) _ rfl
  case it => exact unconditional_intoBlockOnly _ _ (.andThen (retire_intoBlockOnly _ _) fun _ => .next _)
  case ldrLit16 rt _ | ldrReg16 rt _ _ | ldrImm16 rt _ _ | ldrSp16 rt _ =>
    exact loadWord_intoBlockOnly _ fun hpc => absurd hpc rt.reg_ne_pc
  case ldrImm12 | ldrNeg8 | ldrPre | ldrPost | ldrt | ldrReg32 | ldrLit32 =>
    exact loadWord_intoBlockOnly _ fun hpc => decide_eq_true hpc
  case ldrhReg16 | ldrshReg16 | ldrhImm16 | ldrhImm12 | ldrhNeg8 | ldrhPre | ldrhPost | ldrht | ldrhReg32 | ldrhLit32 |
      ldrshImm12 | ldrshNeg8 | ldrshPre | ldrshPost | ldrsht | ldrshReg32 | ldrshLit32 =>
    exact loadHalf_intoBlockOnly _ _ _
  case strReg16 | strhReg16 | strImm16 | strhImm16 | strSp16 | strImm12 | strNeg8 | strPre | strPost | strt | strReg32 |
      strhImm12 | strhNeg8 | strhPre | strhPost | strht | strhReg32 =>
    exact store_intoBlockOnly _ _ _ _
  case pop16 | ldm16 | ldm32 | ldmdb | popW => exact loadMultiple_intoBlockOnly _ _ _ id
  case popWOne =>
    exact .ite (fun hpc => loadMultiple_intoBlockOnly _ _ _ fun _ => decide_eq_true hpc)
      (loadMultiple_intoBlockOnly _ _ _ nofun)
  -- data processing, shifts and special registers complete in the next state
  all_goals exact conditionalAs_intoBlockOnly _ _ _ _ (retire_intoBlockOnly _ _)

/-- Settles O53: each family that writes the PC ends, its checks passed, in `branchTo`, which refuses; and nothing else refuses
so (`exec_intoBlockOnly`). -/
theorem branchIntoBlockRefused : Obligations.BranchIntoBlockRefused := by
  refine ⟨fun c imm8 imm11 imm20 imm24 s => ?_, fun rn imm6 s => ?_, fun rm s => ?_, fun i s acc a n => ?_,
    fun i s a k => ?_, exec_intoBlockOnly⟩
  · repeat rw [List.forall_mem_cons]
    exact ⟨exec_labelBranch_refused (linked := false) (link := 0#32) rfl outsideBlock_holds,
      exec_labelBranch_refused (linked := false) (link := 0#32) rfl outsideBlock_holds,
      exec_labelBranch_refused (linked := false) (link := 0#32) rfl lastOfBlock_holds,
      exec_labelBranch_refused (linked := false) (link := 0#32) rfl lastOfBlock_holds,
      exec_labelBranch_refused (linked := true) (link := (s.pc + 4#32) ||| 1#32) rfl lastOfBlock_holds,
      List.forall_mem_nil _⟩
  · intro target hout hblock
    exact ⟨(exec_compareBranch_refused rfl rfl hout · hblock), (exec_compareBranch_refused rfl rfl hout · hblock)⟩
  · intro target hlast hbit hblock
    repeat rw [List.forall_mem_cons]
    exact ⟨(exec_registerBranch_refused (exec_bx rm s) · hlast hbit hblock),
      (exec_registerBranch_refused (exec_blx rm s) · hlast hbit hblock), List.forall_mem_nil _⟩
  · exact exec_loadPc_refused
  · exact exec_multiple_refused

end Sys2Proof.Machine
end

section
/-! SUPPORT. IT (44_branch_and_conditional R244; 30_encoding R117): the letters of an instruction, the bits of its mask, and the
conditions of its block. -/

namespace Sys2Proof.Machine

/-! ## Masks as bits -/

/-- The bits of a mask, the highest first. -/
def maskBits (mask : BitVec 4) : List Bool := [mask.getLsbD 3, mask.getLsbD 2, mask.getLsbD 1, mask.getLsbD 0]

theorem maskBits_injective : Function.Injective maskBits := by
  intro x y h
  simp only [maskBits, List.cons.injEq] at h
  obtain ⟨h3, h2, h1, h0, -⟩ := h
  apply BitVec.eq_of_getLsbD_eq
  intro k hk
  obtain rfl | rfl | rfl | rfl : k = 0 ∨ k = 1 ∨ k = 2 ∨ k = 3 := by omega
  all_goals assumption

theorem exists_true_mem_maskBits {mask : BitVec 4} (h : mask ≠ 0#4) : true ∈ maskBits mask := by
  by_contra hnone
  simp only [maskBits, List.mem_cons, List.not_mem_nil, or_false, not_or] at hnone
  exact h (maskBits_injective (by simp_all [maskBits]))

/-- The mask bits of letters: one each, equal to `f` for T and not for E, then a 1, then zeros. -/
def letterBits (f : Bool) (letters : List Bool) : List Bool :=
  (letters.map fun l => if l then f else !f) ++ true :: List.replicate (3 - letters.length) false

theorem maskBits_itMask (c : Cond) {letters : List Bool} (h : letters.length ≤ 3) :
    maskBits (itMask c letters) = letterBits (decide (c.num % 2 = 1)) letters := by
  unfold itMask
  generalize decide (c.num % 2 = 1) = f
  match letters with
  | [] => revert f; decide
  | [x] => revert f x; decide
  | [x, y] => revert f x y; decide
  | [x, y, z] => revert f x y z; decide
  | _ :: _ :: _ :: _ :: _ => exact absurd h (by simp)

/-! ## The block of a mask -/

/-- The conditions of the letters, read back from their bits. -/
theorem itRest_letterBits (c : Cond) (f : Bool) (letters : List Bool) :
    itRest c f (letterBits f letters) = letters.map fun l => if l then c else c.inverse := by
  rw [letterBits]
  generalize 3 - letters.length = n
  induction letters with
  | nil => simp [itRest]
  | cons l letters ih =>
    have hbit : ((if l then f else !f) == f) = l := by cases l <;> cases f <;> rfl
    simp [itRest, hbit, ← ih]

theorem itBlock_itMask (c : Cond) {letters : List Bool} (h : letters.length ≤ 3) :
    itBlock c (itMask c letters) = c :: letters.map fun l => if l then c else c.inverse := by
  rw [← itRest_letterBits c (decide (c.num % 2 = 1)), ← maskBits_itMask c h]
  rfl

/-! ## Which masks are admitted -/

theorem itOk_iff_of_ne_al {c : Cond} (hc : c ≠ .al) (mask : BitVec 4) : itOk c mask = true ↔ mask ≠ 0#4 := by
  cases c
  case al => exact absurd rfl hc
  all_goals exact decide_eq_true_iff

/-- The masks of AL are those of T letters alone. -/
theorem itOk_al_iff {mask : BitVec 4} : itOk .al mask = true ↔ ∃ n ≤ 3, mask = itMask .al (List.replicate n true) := by
  revert mask; decide

theorem itOk_itMask {c : Cond} {letters : List Bool} (h : letters.length ≤ 3) (hal : c = .al → ∀ l ∈ letters, l = true) :
    itOk c (itMask c letters) = true := by
  by_cases hc : c = .al
  · subst hc
    exact itOk_al_iff.2 ⟨letters.length, h, by rw [← List.eq_replicate_of_mem (hal rfl)]⟩
  · rw [itOk_iff_of_ne_al hc]
    intro hzero
    have hbits := maskBits_itMask c h
    rw [hzero] at hbits
    have hmem : true ∈ maskBits 0#4 := by simp [hbits, letterBits]
    exact absurd hmem (by decide)

/-- Bits with a 1 among them end in a 1 and zeros. -/
theorem exists_eq_append_true {bs : List Bool} (h : true ∈ bs) : ∃ ls n, bs = ls ++ true :: List.replicate n false := by
  induction bs with
  | nil => cases h
  | cons b bs ih =>
    by_cases hbs : true ∈ bs
    · obtain ⟨ls, n, rfl⟩ := ih hbs
      exact ⟨b :: ls, n, rfl⟩
    · obtain rfl : true = b := (List.mem_cons.1 h).resolve_right hbs
      have hzeros : bs = List.replicate bs.length false :=
        List.eq_replicate_of_mem fun b hb => Bool.eq_false_iff.2 fun hb' => hbs (hb' ▸ hb)
      exact ⟨[], bs.length, congrArg (true :: ·) hzeros⟩

/-- Every mask but 0000 is that of some letters. -/
theorem exists_itMask_eq (c : Cond) {mask : BitVec 4} (h : mask ≠ 0#4) :
    ∃ letters : List Bool, letters.length ≤ 3 ∧ itMask c letters = mask := by
  set f := decide (c.num % 2 = 1)
  obtain ⟨ls, n, hbits⟩ := exists_eq_append_true (exists_true_mem_maskBits h)
  have hlen : 4 = ls.length + (n + 1) := by simpa [maskBits] using congrArg List.length hbits
  have hletters : (ls.map (· == f)).length ≤ 3 := by rw [List.length_map]; omega
  refine ⟨_, hletters, maskBits_injective ?_⟩
  rw [maskBits_itMask c hletters, hbits, letterBits, List.map_map, List.length_map, show 3 - ls.length = n by omega]
  have hid : ((fun l => if l then f else !f) ∘ (· == f)) = id := funext fun b => by cases b <;> simp
  rw [hid, List.map_id]

theorem exec_it (c : Cond) (mask : BitVec 4) (s : State) :
    exec (.it c mask) s =
      unconditional (.it c mask) s (andThen (retire (.it c mask) s) fun t => .next { t with itstate := itBlock c mask }) := rfl

/-- Settles O57: the bits of the mask are those of the letters, and every admitted mask has such bits. -/
theorem itOpensBlock : Obligations.ItOpensBlock := by
  refine ⟨fun s c letters hlen hal hout hroom => ?_, fun c mask hok => ?_⟩
  · have hwf : (Instr.it c (itMask c letters)).wellFormed = true := itOk_itMask hlen hal
    rw [exec_it, unconditional_passed hwf hout, retire_of_room (n := 2) rfl hroom rfl, andThen_next, itBlock_itMask c hlen]
    rfl
  · by_cases hc : c = .al
    · subst hc
      obtain ⟨n, hn, rfl⟩ := itOk_al_iff.1 hok
      exact ⟨List.replicate n true, by simpa using hn, fun _ l => List.eq_of_mem_replicate, rfl⟩
    · obtain ⟨letters, hlen, hmask⟩ := exists_itMask_eq c ((itOk_iff_of_ne_al hc mask).1 hok)
      exact ⟨letters, hlen, fun h => absurd h hc, hmask⟩

end Sys2Proof.Machine
end

section
/-! SUPPORT. Privilege along a run (60_exceptions R278; 40_special_register_access R146): what every step keeps, a run keeps, and a
step of an unprivileged thread keeps CONTROL and the exception masks. -/

namespace Sys2Proof.Machine

/-! ## Runs -/

section
variable {M : Host.Core} {n : Nat} {s t : M.State}

/-- A run of `n + 1` steps is one step and a run of `n` from there. -/
theorem run_succ_eq_next (h : M.run (n + 1) s = .next t) : ∃ u, M.step s = .next u ∧ M.run n u = .next t := by
  rw [Host.Core.run] at h
  split at h
  next u hstep => exact ⟨u, hstep, h⟩
  next => cases h
  next => cases h

/-- What every step keeps holds at the end of a run. -/
theorem run_keeps {P : M.State → Prop} (hstep : ∀ u v, P u → M.step u = .next v → P v) (hs : P s)
    (h : M.run n s = .next t) : P t := by
  induction n generalizing s with
  | zero =>
    cases h
    exact hs
  | succ n ih =>
    obtain ⟨u, hu, hrun⟩ := run_succ_eq_next h
    exact ih (hstep s u hs hu) hrun

end

/-! ## The registers that only a privileged thread can write -/

/-- `t` has the CONTROL and the exception masks of `s`. -/
structure SameMasks (s t : State) : Prop where
  control : t.control = s.control
  primask : t.primask = s.primask
  faultmask : t.faultmask = s.faultmask
  basepri : t.basepri = s.basepri

theorem SameMasks.refl (s : State) : SameMasks s s := ⟨rfl, rfl, rfl, rfl⟩

theorem SameMasks.trans {s u t : State} (h : SameMasks s u) (h' : SameMasks u t) : SameMasks s t where
  control := h'.control.trans h.control
  primask := h'.primask.trans h.primask
  faultmask := h'.faultmask.trans h.faultmask
  basepri := h'.basepri.trans h.basepri

/-- Each of these registers has a privileged writer alone (`specialRegisterWriters`). -/
theorem exec_sameMasks {i : Instr} {s t : State} (hs : s.control.getLsbD 0 = true) (h : exec i s = .next t) :
    SameMasks s t := by
  have kept {P Q : Prop} (hw : P ∨ s.control.getLsbD 0 = false ∧ Q) : P :=
    hw.resolve_right fun hpriv => Bool.false_ne_true (hpriv.1.symm.trans hs)
  obtain ⟨hprimask, hfaultmask, hbasepri, hcontrol, -⟩ := specialRegisterWriters i s t h
  exact ⟨kept hcontrol, kept hprimask, kept hfaultmask, kept hbasepri⟩

theorem step_sameMasks {s t : State} (hs : s.control.getLsbD 0 = true) (h : step s = .next t) : SameMasks s t := by
  obtain ⟨-, rfl⟩ | ⟨-, i, -, hexec⟩ := step_eq_next h
  · exact .refl _
  · exact exec_sameMasks hs hexec

/-- Settles O12: every state of the run has the first one's CONTROL, so it is unprivileged, and its step leaves CONTROL and the
masks again. -/
theorem unprivilegedForGood : Obligations.UnprivilegedForGood := by
  intro n s t hs hrun
  have hsame : SameMasks s t := by
    refine run_keeps (P := SameMasks s) (fun u v hu hstep => ?_) (.refl s) hrun
    have hpriv : u.control.getLsbD 0 = true := by rw [hu.control, hs]
    exact hu.trans (step_sameMasks hpriv hstep)
  exact ⟨hsame.control, hsame.primask, hsame.faultmask, hsame.basepri⟩

end Sys2Proof.Machine
end

section
/-! SUPPORT. The faults that the meaning of an instruction can raise (60_exceptions R270 to R273; 20_memory R64, R70). -/

namespace Sys2Proof.Machine

/-- The instruction is a single load or store, or a multiple load. -/
def AccessesMemory (i : Instr) (s : State) : Prop := (i.accesses s).isSome = true ∨ i.isMultiple = true

/-- The instruction writes the PC with an address whose bit[0] must be 1 (10_state R25). -/
def TakesPcFromWord (i : Instr) : Prop := (∃ rm, i = .bx rm) ∨ (∃ rm, i = .blx rm) ∨ i.loadsPc = true

/-- The faults of an instruction, by cause: those of its accesses, and that of the write of the PC. -/
inductive FaultOf (i : Instr) (s : State) : Fault → Prop where
  | unaligned (a : Word) (h : AccessesMemory i s) : FaultOf i s (.usageFault (.unaligned a) s.pc)
  | stuck (acc : Access) (a : Nat) (h : AccessesMemory i s) : FaultOf i s (.stuck acc a)
  | invstate (h : TakesPcFromWord i) : FaultOf i s (.usageFault .invstate s.pc)

section
variable {i : Instr} {s : State} {r : Fault}

/-! ## The shared operations -/

theorem checkAlign_faultOf {ok : Bool} {cls : AccessClass} {a : Word} (hi : AccessesMemory i s)
    (h : checkAlign ok cls a s = .fault r) : FaultOf i s r := by
  obtain ⟨-, -, rfl⟩ := checkAlign_eq_fault.1 h
  exact .unaligned a hi

theorem readAt_faultOf {a n : Nat} (hi : AccessesMemory i s) (h : readAt a n s = .fault r) : FaultOf i s r := by
  obtain ⟨-, -, rfl⟩ := readAt_eq_fault.1 h
  exact .stuck .read a hi

theorem writeAt_faultOf {a n : Nat} {v : Word} (hi : AccessesMemory i s) (h : writeAt a n v s = .fault r) :
    FaultOf i s r := by
  obtain ⟨-, -, -, rfl⟩ := writeAt_eq_fault.1 h
  exact .stuck .write a hi

theorem readWords_faultOf {k a : Nat} (hi : AccessesMemory i s) (h : readWords k a s = .fault r) : FaultOf i s r := by
  obtain ⟨b, rfl⟩ := readWords_eq_fault h
  exact .stuck .read b hi

theorem loadWritePc_faultOf {v : Word} {u : State} (hi : TakesPcFromWord i) (h : loadWritePc v s u = .fault r) :
    FaultOf i s r := by
  obtain ⟨-, rfl⟩ := loadWritePc_eq_fault.1 h
  exact .invstate hi

/-! ## The families of instructions that raise no fault -/

theorem conditionalAs_retire_ne_fault (own : Cond) (p : Placement) (u : State) :
    conditionalAs own p i s (retire i u) ≠ .fault r := fun h => retire_ne_fault _ _ _ (conditionalAs_eq_fault h).2

theorem conditionalAs_branchTo_ne_fault (own : Cond) (p : Placement) (target : Word) (u : State) :
    conditionalAs own p i s (branchTo target u) ≠ .fault r := fun h => branchTo_ne_fault _ _ _ (conditionalAs_eq_fault h).2

theorem compareBranch_ne_fault (c : Prop) [Decidable c] (target : Word) :
    unconditional i s (if c then branchTo target s else retire i s) ≠ .fault r := by
  intro h
  have heffect := unconditional_eq_fault h
  split at heffect
  · exact branchTo_ne_fault _ _ _ heffect
  · exact retire_ne_fault _ _ _ heffect

theorem execIt_ne_fault (c : Cond) (mask : BitVec 4) : execIt c mask s ≠ .fault r := by
  intro h
  obtain h | ⟨_, -, h⟩ := andThen_eq_fault.1 (unconditional_eq_fault h)
  · exact retire_ne_fault _ _ _ h
  · cases h

/-! ## The families of instructions that can fault -/

theorem registerBranch_faultOf {p : Placement} {v : Word} {u : State} (hi : TakesPcFromWord i)
    (h : conditionalAs .al p i s (loadWritePc v s u) = .fault r) : conditionPassed .al s = true ∧ FaultOf i s r :=
  (conditionalAs_eq_fault h).imp_right (loadWritePc_faultOf hi)

theorem loadWord_faultOf {rt : Reg} {form : AddrForm} (hi : AccessesMemory i s) (hpc : rt = .pc → i.loadsPc = true)
    (h : loadWord i rt form s = .fault r) : conditionPassed .al s = true ∧ FaultOf i s r := by
  refine (conditionalAs_eq_fault h).imp_right fun h => ?_
  obtain h | ⟨_, -, h⟩ := andThen_eq_fault.1 h
  · exact checkAlign_faultOf hi h
  split at h
  · cases h
  obtain h | ⟨_, -, h⟩ := andThen_eq_fault.1 h
  · exact readAt_faultOf hi h
  split at h
  next hrt => exact loadWritePc_faultOf (.inr (.inr (hpc hrt))) h
  next => exact absurd h (retire_ne_fault _ _ _)

theorem loadHalf_faultOf {rt : Reg} {form : AddrForm} {ext : Extend} (hi : AccessesMemory i s)
    (h : loadHalf i rt form ext s = .fault r) : conditionPassed .al s = true ∧ FaultOf i s r := by
  refine (conditionalAs_eq_fault h).imp_right fun h => ?_
  obtain h | ⟨_, -, h⟩ := andThen_eq_fault.1 h
  · obtain h | ⟨_, -, h⟩ := andThen_eq_fault.1 h
    · exact checkAlign_faultOf hi h
    · exact readAt_faultOf hi h
  · exact absurd h (retire_ne_fault _ _ _)

theorem store_faultOf {rt : Reg} {form : AddrForm} {cls : AccessClass} {n : Nat} (hi : AccessesMemory i s)
    (h : store i rt form cls n s = .fault r) : conditionPassed .al s = true ∧ FaultOf i s r := by
  refine (conditionalAs_eq_fault h).imp_right fun h => ?_
  obtain h | ⟨_, -, h⟩ := andThen_eq_fault.1 h
  · obtain h | ⟨_, -, h⟩ := andThen_eq_fault.1 h
    · exact checkAlign_faultOf hi h
    · exact writeAt_faultOf hi h
  · exact absurd h (retire_ne_fault _ _ _)

theorem loadMultiple_faultOf {regs : List Reg} {start : Word} {wb : Option (Reg × Word)} (hi : AccessesMemory i s)
    (h : loadMultiple i regs i.loadsPc start wb s = .fault r) : conditionPassed .al s = true ∧ FaultOf i s r := by
  refine (conditionalAs_eq_fault h).imp_right fun h => ?_
  obtain h | ⟨_, -, h⟩ := andThen_eq_fault.1 h
  · exact checkAlign_faultOf hi h
  obtain h | ⟨_, -, h⟩ := andThen_eq_fault.1 h
  · exact readWords_faultOf hi h
  split at h
  next hpc =>
    obtain h | ⟨_, -, h⟩ := andThen_eq_fault.1 h
    · exact readAt_faultOf hi h
    · exact loadWritePc_faultOf (.inr (.inr hpc)) h
  next => exact absurd h (retire_ne_fault _ _ _)

theorem exec_multiple_faultOf {a : Word} {k : Nat} (hmult : i.multiple s = some (a, k)) (hi : AccessesMemory i s)
    (h : exec i s = .fault r) : conditionPassed .al s = true ∧ FaultOf i s r := by
  obtain ⟨-, regs, wb, hexec, -⟩ := exec_of_multiple hmult
  rw [hexec] at h
  exact loadMultiple_faultOf hi h

end

/-! ## Every instruction -/

/-- An instruction faults with its condition passed and for a cause of its own, by family of instructions. -/
theorem exec_faultOf {i : Instr} {s : State} {r : Fault} (h : exec i s = .fault r) :
    conditionPassed .al s = true ∧ FaultOf i s r := by
  cases i
  case bx rm => exact registerBranch_faultOf (.inl ⟨rm, rfl⟩) h
  case blx rm => exact registerBranch_faultOf (.inr (.inl ⟨rm, rfl⟩)) h
  case bCond16 | b16 | bCond32 | b32 | bl => exact absurd h (conditionalAs_branchTo_ne_fault _ _ _ _)
  case cbz rn imm6 => exact absurd h (compareBranch_ne_fault (i := .cbz rn imm6) (s.reg rn.reg = 0#32) _)
  case cbnz rn imm6 => exact absurd h (compareBranch_ne_fault (i := .cbnz rn imm6) (s.reg rn.reg ≠ 0#32) _)
  case it => exact absurd h (execIt_ne_fault _ _)
  case ldrLit16 rt _ | ldrReg16 rt _ _ | ldrImm16 rt _ _ | ldrSp16 rt _ =>
    exact loadWord_faultOf (.inl rfl) (fun hpc => absurd hpc rt.reg_ne_pc) h
  case ldrImm12 | ldrNeg8 | ldrPre | ldrPost | ldrt | ldrReg32 | ldrLit32 =>
    exact loadWord_faultOf (.inl rfl) (fun hpc => decide_eq_true hpc) h
  case ldrhReg16 | ldrshReg16 | ldrhImm16 | ldrhImm12 | ldrhNeg8 | ldrhPre | ldrhPost | ldrht | ldrhReg32 | ldrhLit32 |
      ldrshImm12 | ldrshNeg8 | ldrshPre | ldrshPost | ldrsht | ldrshReg32 | ldrshLit32 =>
    exact loadHalf_faultOf (.inl rfl) h
  case strReg16 | strhReg16 | strImm16 | strhImm16 | strSp16 | strImm12 | strNeg8 | strPre | strPost | strt | strReg32 |
      strhImm12 | strhNeg8 | strhPre | strhPost | strht | strhReg32 =>
    exact store_faultOf (.inl rfl) h
  case pop16 | ldm16 | ldm32 | ldmdb | popW | popWOne => exact exec_multiple_faultOf rfl (.inr rfl) h
  -- data processing, shifts and special registers complete in the next state
  all_goals exact absurd h (conditionalAs_retire_ne_fault _ _ _)

/-- Settles O19: each kind of fault is of one cause of the instruction's own (`exec_faultOf`). -/
theorem faultsComeFrom : Obligations.FaultsComeFrom := by
  refine fun i s => ⟨fun a p h => ?_, fun p h => ?_, fun acc a h => ?_⟩
  · obtain ⟨hpassed, hcause⟩ := exec_faultOf h
    cases hcause with
    | unaligned _ hi => exact ⟨rfl, hpassed, hi⟩
  · obtain ⟨hpassed, hcause⟩ := exec_faultOf h
    cases hcause with
    | invstate hi => exact ⟨rfl, hpassed, hi⟩
  · obtain ⟨hpassed, hcause⟩ := exec_faultOf h
    cases hcause with
    | stuck _ _ hi => exact ⟨hpassed, hi⟩

end Sys2Proof.Machine
end

section
/-! SUPPORT. A program loaded at the PC is what the step fetches (70_reset_and_hazards R300; 20_memory R69). -/

namespace Sys2Proof

theorem Config.admits_of_mem_regions {c : Config} {r : Region} {acc : Access} {a n : Nat} (hr : r ∈ c.regions)
    (hadm : ∀ k < n, r.admits acc (a + k) = true) : c.admits acc a n = true := by
  simp only [Config.admits, List.all_eq_true, List.mem_range, List.any_eq_true]
  exact fun k hk => ⟨r, hr, hadm k hk⟩

theorem tableBytes_length (nbits w : Nat) : (tableBytes nbits w).length = 4 := by
  unfold tableBytes
  split <;> rfl

theorem decodeTableWord_eq_some_iff {nbits w : Nat} {i : Instr} :
    decodeTableWord nbits w = some i ↔ ∃ rest, decode (tableBytes nbits w) = .ok (i, rest) := by
  unfold decodeTableWord
  split <;> simp_all

end Sys2Proof

namespace Sys2Proof.Machine

theorem encodeBytes_length (i : Instr) : (encodeBytes i).length = width i := by
  simp [encodeBytes, width, bytesOfHalf, Nat.mul_comm]

theorem Memory.readBytes_of_append {m : Memory} {a : Nat} {bs rest : List Byte}
    (h : m.readBytes a (bs.length + rest.length) = bs ++ rest) : m.readBytes a bs.length = bs := by
  rw [Memory.readBytes_add] at h
  exact (List.append_inj h (m.readBytes_length a _)).1

/-! ## A step of the bytes at the PC -/

/-- A step whose bytes at the PC begin with an instruction runs it, whatever follows it (30_encoding R93). -/
theorem step_of_decode {s : State} {bs rest : List Byte} {i : Instr} (hrun : s.pc ≠ s.cfg.haltAddr)
    (hfetch : fetchAt s.pc.toNat bs.length s = .next bs) (hdec : decode bs = .ok (i, rest)) : step s = exec i s := by
  obtain ⟨hwf, rfl⟩ := encodeOfDecode _ _ _ hdec
  obtain ⟨htop, hadm, hmem⟩ := fetchAt_eq_next.1 hfetch
  rw [List.length_append] at htop hadm hmem
  rw [Config.admits_add, Bool.and_eq_true] at hadm
  have hread := Memory.readBytes_of_append hmem.symm
  have halone : decode (encodeBytes i) = .ok (i, []) := by simpa using decodeOfEncode i [] hwf
  rw [encodeBytes_length] at htop hadm hread
  exact stepRunsDecoded.1 s i hrun (by omega) hadm.1 (by rw [hread, halone])

/-! ## A loaded program -/

section
variable (bs : List Byte) (s : State)

/-- The halt address gives way to the program: `a ^^^ 1` is not `a`. -/
theorem placeProgram_running : (placeProgram bs s).pc ≠ (placeProgram bs s).cfg.haltAddr := by
  simp only [placeProgram]
  split
  next h =>
    rw [← halted_iff.1 h]
    exact fun heq => by simpa using congrArg (s.pc ^^^ ·) heq
  next h => exact mt halted_iff.2 h

/-- Where the launch memory does not admit the fetch already, the region added for the program does. -/
theorem placeProgram_admits : (placeProgram bs s).cfg.admits .fetch s.pc.toNat bs.length = true := by
  simp only [placeProgram]
  split
  next h => exact h
  next =>
    refine Config.admits_of_mem_regions (List.mem_cons_self ..) fun k hk => ?_
    simp [Region.admits, Range.contains, hk]

variable {bs s}

theorem placeProgram_readBytes (hm : s.mem.wf = true) (hfit : s.pc.toNat + bs.length ≤ addressCount) :
    (placeProgram bs s).mem.readBytes s.pc.toNat bs.length = bs := by
  have htake : bs.take (addressCount - s.pc.toNat) = bs := List.take_of_length_le (by omega)
  rw [placeProgram, htake, Memory.readBytes_writeBytes hm hfit]

theorem fetchAt_placeProgram (hm : s.mem.wf = true) (hfit : s.pc.toNat + bs.length ≤ addressCount) :
    fetchAt (placeProgram bs s).pc.toNat bs.length (placeProgram bs s) = .next bs :=
  fetchAt_eq_next.2 ⟨hfit, placeProgram_admits bs s, (placeProgram_readBytes hm hfit).symm⟩

end

/-- Settles O6: the word's four bytes are fetched at the PC, and the step runs the instruction they begin with. -/
theorem placedWordRuns : Obligations.PlacedWordRuns := by
  intro s nbits w i hm hfit hword
  obtain ⟨rest, hdec⟩ := decodeTableWord_eq_some_iff.1 hword
  rw [← tableBytes_length nbits w] at hfit
  exact step_of_decode (placeProgram_running _ s) (fetchAt_placeProgram hm hfit) hdec

end Sys2Proof.Machine
end

section
/-! SUPPORT. What a word of the table decodes to, and when to nothing (30_encoding section 7; notes/assumptions/14.md). -/

namespace Sys2Proof

/-- A word decodes to exactly the well-formed instruction whose bytes it begins with. -/
theorem decodeTableWord_eq_some_iff_prefix {nbits w : Nat} {i : Instr} :
    decodeTableWord nbits w = some i ↔ i.wellFormed = true ∧ encodeBytes i <+: tableBytes nbits w := by
  rw [decodeTableWord_eq_some_iff]
  constructor
  · rintro ⟨rest, hdec⟩
    obtain ⟨hwf, hbytes⟩ := encodeOfDecode _ _ _ hdec
    exact ⟨hwf, rest, hbytes⟩
  · rintro ⟨hwf, rest, hbytes⟩
    exact ⟨rest, hbytes ▸ decodeOfEncode i rest hwf⟩

/-- A pattern that matches no row is no instruction (30_encoding R104). -/
theorem accepted_none : accepted none = none := rfl

/-- A pattern that violates its row's constraints is no instruction (30_encoding R104). -/
theorem accepted_some_of_malformed {i : Instr} (hw : i.wellFormed = false) : accepted (some i) = none := by
  simp [accepted, hw]

theorem decodeTableWord_narrow_eq_none {w : Nat} (hw : is32 (BitVec.ofNat 16 w) = false)
    (hd : decode16 (BitVec.ofNat 16 w) = none) : decodeTableWord 16 w = none := by
  obtain ⟨b0, b1, hb, hh⟩ := exists_bytesOfHalf (BitVec.ofNat 16 w)
  simp [decodeTableWord, tableBytes, decode, hb, hh, hw, hd]

theorem decodeTableWord_wide_eq_none {w : Nat} (hw : is32 (BitVec.ofNat 16 (w / 65536)) = true)
    (hd : decode32 (BitVec.ofNat 16 (w / 65536)) (BitVec.ofNat 16 w) = none) : decodeTableWord 32 w = none := by
  obtain ⟨b0, b1, hb, hh⟩ := exists_bytesOfHalf (BitVec.ofNat 16 (w / 65536))
  obtain ⟨b2, b3, hb', hh'⟩ := exists_bytesOfHalf (BitVec.ofNat 16 w)
  simp [decodeTableWord, tableBytes, decode, hb, hb', hh, hh', hw, hd]

/-! ## Three patterns that are no instruction (30_encoding R104) -/

/-- 0xBF00 is in the row of IT, with the mask 0 that IT does not admit. -/
theorem decode16_BF00 : decode16 0xBF00#16 = none := by
  have hrow : parse16 0xBF00#16 = some (.it .eq 0#4) := by decide
  rw [decode16, hrow, accepted_some_of_malformed (by decide)]

/-- 0xDE00 is in the row of the conditional branch, with the condition 14 (AL) that the row does not admit. -/
theorem decode16_DE00 : decode16 0xDE00#16 = none := by
  have hrow : parse16 0xDE00#16 = some (.bCond16 .al 0#8) := by decide
  rw [decode16, hrow, accepted_some_of_malformed (by decide)]

/-- 0xF3EF 8115 matches no row: it is a Read function but for its SYSm, and 21 is the number of no special register. -/
theorem decode32_F3EF_8115 : decode32 0xF3EF#16 0x8115#16 = none := by
  have hrow : parse32 0xF3EF#16 0x8115#16 = none := by decide
  rw [decode32, hrow, accepted_none]

end Sys2Proof

namespace Sys2Proof.Machine

/-- Settles O4: each word begins with the bytes of its well-formed instruction, and the last three are accepted as none. -/
theorem decodeSamples : Obligations.DecodeSamples := by
  unfold Obligations.DecodeSamples
  simp only [decodeTableWord_eq_some_iff_prefix]
  refine ⟨?_, ?_, ?_, ?_, ?_, ?_, ?_, ?_, ?_, decodeTableWord_narrow_eq_none (by decide) decode16_BF00,
    decodeTableWord_narrow_eq_none (by decide) decode16_DE00,
    decodeTableWord_wide_eq_none (by decide) decode32_F3EF_8115⟩ <;> decide

end Sys2Proof.Machine
end
